-- ==== Sys2Proof/Word.lean ====
section
/-! DEFINITION. The words of the NG-32: bytes, round numbers, slot numbers and instants. -/

namespace Sys2Proof

/-- One byte of a frame or of a host record; also a station id, a sequence number, a group mask. -/
abbrev Byte := BitVec 8

/-- A round number, modulo 2^24 (R1). -/
abbrev Round := BitVec 24

/-- A slot number, 0 to 31 (R6). -/
abbrev Slot := Fin 32

/-- A round clock value, a round number and a phase (01, section 1.3). -/
structure Instant where
  round : Round
  phase : Nat
  deriving DecidableEq, Repr

end Sys2Proof
end

