-- ==== Sys2Proof/Syntax.lean ====
section
/-! DEFINITION. The commands: one constructor for each row of spec/opcode_table.json. -/

namespace Sys2Proof

/-- How far a FETCH row takes its transaction: the bits clocked after the opening byte, and whether SELn is then
released, which otherwise stays asserted until a COMMAND_TAKEN. -/
structure FetchPart where
  clocked : Nat
  released : Bool
  deriving DecidableEq, Repr

/-- A command. The rows of the table carry no fields; an operand here is what the outside world, or an order
the manual leaves open, brings to the step. -/
inductive Instr
  /-- POWER_ON: the supply comes up. -/
  | powerOn
  /-- RSTN_ACTIVE: RSTn has been held low for `lowMicroseconds` so far. -/
  | rstnActive (lowMicroseconds : Nat)
  /-- RESET_DONE: the LF oscillator is stable or RSTn is released, and the cold reset ends. -/
  | resetDone
  /-- LF_PERIOD: an LF period begins. `irrx`: the level of pin IRRX in each of its 30 whole microseconds, in order;
  `extra`: the level in a 31st, in a period that has one; true is high, which is no carrier (R176). -/
  | lfPeriod (irrx : List Bool) (extra : Option Bool)
  /-- SLOT_START: the slot start due in this LF period is announced. -/
  | slotStart
  /-- ROUND_WRAP: the round wrap due in this LF period is announced. -/
  | roundWrap
  /-- SEAM_POINT: the seam point due in this LF period is announced; `syncFirst` says which of the two units
  acts first (R98). -/
  | seamPoint (syncFirst : Bool)
  /-- SURVEY_FOUNDING: the founding deadline of a survey passes. -/
  | surveyFounding
  /-- LISTEN_WINDOW_OPEN: a planned listen window opens. -/
  | listenWindowOpen
  /-- WINDOW_CLOSE: the open listen window closes. -/
  | windowClose
  /-- MARKER_RECOGNISED: a candidate marker completes on IRRX. `nothing` carries nothing: the candidates are the
  receiver's own, and LF_PERIOD brings the levels. -/
  | markerRecognised (nothing : Unit)
  /-- RECEPTION_END: the reception in progress ends and is handed over. -/
  | receptionEnd
  /-- TRANSMIT_START: the pending frame's start instant is reached. -/
  | transmitStart
  /-- COLLIDED: the echo check finds a mismatched half-cell. -/
  | collided
  /-- SENT: the frame and its closing silence end. -/
  | sent
  /-- PARSE_RECEPTION: the frame unit takes the oldest waiting reception. -/
  | parseReception
  /-- CARRY_ITEM: the cue table takes the next carry item. -/
  | carryItem
  /-- CUE_FALLS_DUE: the clock has reached the watched due instant. -/
  | cueFallsDue
  /-- PULSE_END: the pulse on `line` ends. -/
  | pulseEnd (line : Fin 4)
  /-- RECORD_FIRING_REPORT: the cue table records the oldest firing report. -/
  | recordFiringReport
  /-- ENTER_DOZE: the power controller stops the HF oscillator. -/
  | enterDoze
  /-- WAKE_PLAN: the clock has reached the wake instant. -/
  | wakePlan
  /-- HF_STABLE: the HF oscillator has become stable. -/
  | hfStable
  /-- SELN_ASSERTED: the host asserts SELn. -/
  | selnAsserted
  /-- COMMAND_TAKEN: SELn is released after the bits `sdi` (first bit first) were shifted in; after a FETCH that
  is still in progress, these are the bits since that row. -/
  | commandTaken (sdi : List Bool)
  /-- FETCH: the opening byte of a FETCH transaction and the bits of `part` after it are shifted. -/
  | fetch (part : FetchPart)
  /-- UNKNOWN_COMMAND: the oldest taken record is an unknown command and executes. -/
  | unknownCommand
  /-- MALFORMED: the oldest taken record is malformed and executes. -/
  | malformed
  /-- CONFIGURE executes. -/
  | configure
  /-- START executes. -/
  | start
  /-- LEAVE executes. -/
  | leave
  /-- RESTART executes. -/
  | restart
  /-- POST executes. -/
  | post
  /-- WITHDRAW executes. -/
  | withdraw
  /-- READ_STATUS executes. -/
  | readStatus
  /-- READ_CUE executes. -/
  | readCue
  /-- READ_PEER executes. -/
  | readPeer
  /-- READ_SLOTS executes. -/
  | readSlots
  /-- TAKE_EVENT executes. -/
  | takeEvent
  deriving DecidableEq, Repr

end Sys2Proof
end

