-- ==== Sys2Proof/Config.lean ====
section
/-! DEFINITION. What the manual leaves to the part: the one free choice of the model (log 8). -/

namespace Sys2Proof

/-- R98: at the seam point "either may act first". For the `n`-th seam point that LF_PERIOD has to deliver
itself, whether the sync unit acts before the membership controller. Nothing is known of it: a free value. -/
opaque Config.syncActsFirst : Nat → Bool

end Sys2Proof
end

