-- ==== Sys2Proof/Machine/Instants.lean ====
section
/-! DEFINITION. Instants, the slot grid and the fixed instants inside it (chapter 1). -/

namespace Sys2Proof.Machine

/-- L for a round length code (table under R1). -/
def roundLength (code : Fin 4) : Nat := 16384 * 2 ^ code.val

/-- S = L/32 (R6). -/
def slotLength (code : Fin 4) : Nat := roundLength code / 32

/-- The difference of instant `a` from instant `b` (R4). -/
def instantDiff (L : Nat) (a b : Instant) : Int :=
  (a.round - b.round).toInt * L + ((a.phase : Int) - b.phase)

/-- Instant `a` plus `n` PU (R5). -/
def instantAdd (L : Nat) (a : Instant) (n : Int) : Instant :=
  let p : Int := a.phase + n
  { round := a.round + BitVec.ofInt 24 (p / L), phase := (p % L).toNat }

/-- Instant `a` plus `k` whole rounds (R5). -/
def instantAddRounds (a : Instant) (k : Nat) : Instant :=
  { a with round := a.round + BitVec.ofNat 24 k }

/-- The value the clock counts to at the next LF period (R1). -/
def countOne (L : Nat) (a : Instant) : Instant :=
  if a.phase + 1 < L then { a with phase := a.phase + 1 } else { round := a.round + 1, phase := 0 }

/-- The slot containing a phase (R6). -/
def slotOfPhase (code : Fin 4) (phase : Nat) : Slot :=
  ⟨phase / slotLength code % 32, Nat.mod_lt _ (by decide)⟩

/-- The phase of a claimable slot's beacon start instant (R7). -/
def beaconStartPhase (code : Fin 4) (k : Slot) : Nat := k.val * slotLength code + 16

/-- The phase of the claim start instant of position `n`, numbered open slot × 4 + position (R8). -/
def claimStartPhase (code : Fin 4) (n : Fin 16) : Nat :=
  n.val / 4 * slotLength code + 16 + n.val % 4 * (slotLength code / 4)

/-- The seam point's phase, L−64 (R9). -/
def seamPhase (code : Fin 4) : Nat := roundLength code - 64

/-- The opening phase of slot `k`'s listen window; slot 0's lies in the round before (R19). -/
def windowOpenPhase (code : Fin 4) (k : Slot) : Nat :=
  if k.val = 0 then seamPhase code else k.val * slotLength code - 64

/-- The close phase of slot `k`'s listen window (R19). -/
def windowClosePhase (code : Fin 4) (k : Slot) : Nat :=
  if k.val < 4 then k.val * slotLength code + 3 * (slotLength code / 4) + 53
  else k.val * slotLength code + 53

/-- How long slot `k`'s window is open. -/
def windowSpan (code : Fin 4) (k : Slot) : Nat :=
  if k.val < 4 then 3 * (slotLength code / 4) + 117 else 117

/-- How many PU of counting bring the clock from `phase` to slot `k`'s opening phase. -/
def toWindowOpen (code : Fin 4) (phase : Nat) (k : Slot) : Nat :=
  (windowOpenPhase code k + roundLength code - phase) % roundLength code

/-- How many PU ago the clock passed slot `k`'s opening phase. -/
def sinceWindowOpen (code : Fin 4) (phase : Nat) (k : Slot) : Nat :=
  (phase + roundLength code - windowOpenPhase code k) % roundLength code

/-- The round of the slot start that slot `k`'s window, open at `now`, was opened for: for slot 0 seen from
slot 31 it is the next round (R52, R66). -/
def windowRound (code : Fin 4) (now : Instant) (k : Slot) : Round :=
  if k.val = 0 ∧ seamPhase code ≤ now.phase then now.round + 1 else now.round

/-- Round `a` lies `n` or more rounds before round `b`, the difference taken as in R4. -/
def roundsBack (a b : Round) (n : Int) : Bool := decide (n ≤ (b - a).toInt)

/-- A full-listen round (R66). -/
def fullListen (r : Round) : Bool := decide (r.toNat % 16 = 0)

end Sys2Proof.Machine
end

