-- ==== Sys2Proof/Machine/State.lean ====
section
/-! DEFINITION. Everything the manual gives the station, block by block, and the state after reset. -/

namespace Sys2Proof.Machine

/-- Why a command stops with a fault: never. The manual names no fault, and no command of the model raises
one (safe: there is nothing to raise). -/
inductive Fault
  deriving DecidableEq, Repr

/-- Why a command is refused. -/
inductive Refusal
  /-- Raised by an arm of `exec` whose command has no meaning yet (safe). -/
  | notModelled (mnemonic : String)
  deriving DecidableEq, Repr

/-! ## Round timer (chapter 1) -/

/-- What the round timer announces besides the seam point (R10). -/
inductive Boundary
  | slotStart (k : Slot)
  | roundWrap
  deriving DecidableEq, Repr

/-- The round timer's items (table before 1.1). `lengthCode` stands for L (R2). `counted`: the present value
was reached by counting, not by a move (R10, R13, R15). `due`: the announcement of the present LF period that
has not been made yet (log 4). -/
structure RoundTimer where
  clock : Instant
  lengthCode : Fin 4
  seamRecord : Option Round
  counted : Bool
  due : Option Boundary
  deriving DecidableEq, Repr

/-! ## Line unit (chapter 2) -/

/-- The two frame kinds. -/
inductive FrameKind
  | beacon
  | claim
  deriving DecidableEq, Repr

/-- A frame handed to the line unit, with its start instant (R25). -/
structure OutFrame where
  kind : FrameKind
  bytes : List Byte
  start : Instant
  deriving DecidableEq, Repr

/-- A half-cell being judged: how many microseconds of it have passed, and in how many of them IRRX showed
carrier (R17). -/
structure HalfCell where
  seen : Nat
  carrier : Nat
  deriving DecidableEq, Repr

/-- The transmitter side (2.2). `halves` counts the half-cells ended since the start, two a cell, those of the
closing silence included; `half` is the one being emitted and checked (R26, R27). -/
inductive Transmitter
  | idle
  | pending (frame : OutFrame)
  | sending (frame : OutFrame) (halves : Nat) (half : HalfCell)
  deriving DecidableEq, Repr

/-- The condition of a reception handed over (R22, R23, R29). -/
inductive Condition
  | complete
  | damaged
  | abandoned
  deriving DecidableEq, Repr

/-- The reception in progress (R21, R22). `first`: the first half of the cell being decoded, once it has ended;
`half`: the half-cell being judged. -/
structure Reception where
  arrival : Instant
  slot : Slot
  bytes : List Byte
  part : List Bool
  silentHeld : Bool
  damaged : Bool
  first : Option Bool
  half : HalfCell
  deriving DecidableEq, Repr

/-- A candidate marker (R21): the half-cells since its edge that were as the marker has them, and the one being
judged. -/
structure MarkerCandidate where
  halves : Nat
  half : HalfCell
  deriving DecidableEq, Repr

/-- The receiver side (2.2). ARMED holds the candidate markers begun since it was armed (R21). -/
inductive Receiver
  | disarmed
  | armed (candidates : List MarkerCandidate)
  | receiving (r : Reception)
  | echo
  deriving DecidableEq, Repr

/-- The open listen window (R19, R20, R24): its slot, the round of the slot start it was opened for, and what
happened in it. -/
structure Window where
  slot : Slot
  round : Round
  marker : Bool
  transmitted : Bool
  deriving DecidableEq, Repr

/-- The line unit. `history`: newest first, at most 8 LF periods (R28); `carrierNow`: a burst in the present
LF period. `irrx`: the level of pin IRRX at the last microsecond that has passed; `wave`: its levels in the
microseconds of the present LF period still to come (log 25). -/
structure LineUnit where
  tx : Transmitter
  rx : Receiver
  window : Option Window
  history : List Bool
  carrierNow : Bool
  irrx : Bool
  wave : List Bool
  deriving DecidableEq, Repr

/-! ## Frame unit (chapter 3) -/

/-- The state flag of a beacon (R34). -/
inductive BeaconFlag
  | tentative
  | settled
  | leaving
  deriving DecidableEq, Repr

/-- The four actions (R36). -/
inductive Action
  | pulse
  | on
  | off
  | toggle
  deriving DecidableEq, Repr

/-- The two item kinds (R36). -/
inductive ItemKind
  | cue
  | withdrawal
  deriving DecidableEq, Repr

/-- A carry item (R36). -/
structure CarryItem where
  kind : ItemKind
  line : Fin 4
  action : Action
  origin : Byte
  seq : Byte
  due : Instant
  width : Byte
  mask : Byte
  deriving DecidableEq, Repr

/-- What the sending side holds while HANDED (3.2). -/
inductive Handed
  | beacon (slot : Slot) (flag : BeaconFlag)
  | claim
  deriving DecidableEq, Repr

/-- A reception waiting to be parsed; `age` counts LF periods since its hand-over (R37, log 18). -/
structure WaitingReception where
  arrival : Instant
  slot : Slot
  bytes : List Byte
  condition : Condition
  age : Nat
  deriving DecidableEq, Repr

/-- The frame unit. `items`: the carry items of the frame being handed out that the cue table has not taken
yet; `itemsAge`: LF periods since that frame's hand-over. -/
structure FrameUnit where
  sending : Option Handed
  waiting : List WaitingReception
  items : List CarryItem
  itemsAge : Nat
  deriving DecidableEq, Repr

/-! ## Membership controller (chapters 4 to 6) -/

/-- The eight station states (5.1). -/
inductive StationState
  | unconfigured
  | ready
  | survey
  | claiming
  | tentative
  | settled
  | backoff
  | leaving
  deriving DecidableEq, Repr

/-- The kind of a slot entry with what is present for it (R51). -/
inductive SlotKind
  | openSlot
  | vacant
  | claimed (holder : Byte) (round : Round)
  | occupied (holder : Byte)
  | own
  deriving DecidableEq, Repr

/-- A slot's last outcome (R51). -/
inductive SlotOutcome
  | unheard
  | clean
  | garbled
  | silent
  deriving DecidableEq, Repr

/-- One entry of the slot table (R51). -/
structure SlotEntry where
  kind : SlotKind
  outcome : SlotOutcome
  outcomeRound : Round
  deriving DecidableEq, Repr

/-- A peer's reported state (R59). -/
inductive PeerState
  | claimant
  | tentative
  | settled
  | leaving
  deriving DecidableEq, Repr

/-- What a peer's last beacon reported of itself (R59). -/
structure PeerReport where
  offset : Int
  members : Byte
  lowest : Byte
  deriving DecidableEq, Repr

/-- One entry of the peer table (R59). -/
structure PeerEntry where
  id : Byte
  slot : Option Slot
  state : PeerState
  heard : Round
  missed : Nat
  report : Option PeerReport
  deriving DecidableEq, Repr

/-- The claim in hand (R70, R78): position 0 to 15 and target slot. -/
structure ClaimInHand where
  position : Fin 16
  target : Slot
  deriving DecidableEq, Repr

/-- The own beacon's transmission outcome (R70). -/
inductive TxOutcome
  | sent
  | collided
  deriving DecidableEq, Repr

/-- The foreign candidate (R100). -/
structure Candidate where
  sender : Byte
  members : Byte
  lowest : Byte
  lead : Int
  deriving DecidableEq, Repr

/-- The membership controller: the two tables, the LFSR and the items of R70 and R100. -/
structure Membership where
  station : StationState
  slots : Vector SlotEntry 32
  peers : List PeerEntry
  lfsr : BitVec 16
  surveyEntry : Option Instant
  surveyEnd : Option Round
  target : Option Slot
  claim : Option ClaimInHand
  tries : Nat
  ownSlot : Option Slot
  claimRound : Option Round
  cleanRounds : Nat
  strikeNow : Bool
  strikeBefore : Bool
  ownOutcome : Option TxOutcome
  backoff : Nat
  leavingBeacons : Nat
  candidate : Option Candidate
  deriving DecidableEq, Repr

/-! ## Sync unit (chapter 6) -/

/-- One sample (R93). -/
structure Sample where
  id : Byte
  offset : Int
  deriving DecidableEq, Repr

/-- The sync unit (6.1). -/
structure SyncUnit where
  samples : List Sample
  listRound : Option Round
  closedRound : Option Round
  lastCorrection : Int
  deriving DecidableEq, Repr

/-! ## Cue table (chapter 7) -/

/-- The retire reason (R106). -/
inductive RetireReason
  | fired
  | skipped
  | withdrawn
  | missed
  deriving DecidableEq, Repr

/-- The state of an entry (R106). -/
inductive CueState
  | pending
  | withdrawn
  | retired (reason : RetireReason)
  deriving DecidableEq, Repr

/-- One entry of the cue table (R106). -/
structure CueEntry where
  origin : Byte
  seq : Byte
  due : Instant
  line : Fin 4
  action : Action
  width : Byte
  mask : Byte
  state : CueState
  forward : Nat
  own : Bool
  deriving DecidableEq, Repr

/-- The cue table (7.1, R109). -/
structure CueTable where
  entries : List CueEntry
  nextSeq : Byte
  deriving DecidableEq, Repr

/-! ## Firing unit (chapter 9) -/

/-- The state of an action line (R137). -/
inductive LineState
  | idle
  | pulsing (remaining : Nat)
  | held
  deriving DecidableEq, Repr

/-- One action line. `ending`: its count would reach 0 in the present LF period, from the start of which it is
IDLE to the pin and to every action (R142, log 23). -/
structure ActionLine where
  state : LineState
  activeLow : Bool
  ending : Bool
  deriving DecidableEq, Repr

/-- The outcome in a firing report (R120). -/
inductive FiringOutcome
  | fired
  | skipped
  | withdrawn
  deriving DecidableEq, Repr

/-- A firing report (R120, R137). -/
structure FiringReport where
  origin : Byte
  seq : Byte
  outcome : FiringOutcome
  lateness : Nat
  deriving DecidableEq, Repr

/-- The firing unit (R137). -/
structure FiringUnit where
  lines : Vector ActionLine 4
  reports : List FiringReport
  deriving DecidableEq, Repr

/-! ## Power controller (chapter 10) -/

/-- The power state (R149). -/
inductive PowerState
  | awake
  | starting
  | doze
  deriving DecidableEq, Repr

/-- The last wake cause (R149). -/
inductive WakeCause
  | none
  | plan
  | host
  | firing
  deriving DecidableEq, Repr

/-- The power controller (R149). `startAge`: LF periods since the oscillator was started, up to 60 (log 18). -/
structure PowerController where
  state : PowerState
  wake : Option Instant
  fullListenBar : Bool
  lastCause : WakeCause
  dozed : Bool
  startAge : Nat
  deriving DecidableEq, Repr

/-! ## Host port (chapter 11) -/

/-- The configuration record: the six CONFIGURE parameters as they were accepted (R166, R175, log 16). -/
structure ConfigRecord where
  id : Byte
  lengthCode : Byte
  mask : Byte
  polarities : Byte
  doze : Byte
  current : Byte
  deriving DecidableEq, Repr

/-- The parameters of POST, as the record holds them (R175). -/
structure PostParams where
  line : Byte
  action : Byte
  width : Byte
  mask : Byte
  dueRound : Round
  duePhase : BitVec 24
  deriving DecidableEq, Repr

/-- A well-formed command record (R160, R175). -/
inductive HostCommand
  | configure (record : ConfigRecord)
  | start
  | leave
  | restart
  | post (params : PostParams)
  | withdraw (seq : Byte)
  | readStatus
  | readCue (index : Byte)
  | readPeer (index : Byte)
  | readSlots
  | takeEvent
  deriving DecidableEq, Repr

/-- A taken record, as the port judged it at select release (R160). -/
inductive TakenRecord
  | unknown (code : Byte)
  | malformed (code : Byte)
  | command (c : HostCommand)
  deriving DecidableEq, Repr

/-- The two causes of a cold reset (R171). -/
inductive ResetCause
  | powerOn
  | resetLine
  deriving DecidableEq, Repr

/-- Why a peer was lost (R63, R64, R65). -/
inductive LostReason
  | silent
  | left
  deriving DecidableEq, Repr

/-- The event kinds with their arguments (R171). -/
inductive EventKind
  | resetDone (cause : ResetCause)
  | restarted
  | aligned (round : Round) (cleared : Bool) (count : Nat)
  | founded
  | joined (slot : Slot)
  | strike (slot : Slot) (reporter : Option Byte)
  | yielded (slot : Slot)
  | cellFull
  | left
  | cellMoved (members lowest : Byte)
  | peerNew (id : Byte) (slot : Option Slot)
  | peerLost (id : Byte) (slot : Option Slot) (reason : LostReason)
  | cueFired (origin seq : Byte) (lateness : Nat)
  | cueMissed (origin seq : Byte)
  | cueRefused (origin seq : Byte)
  | cueEvicted (origin seq : Byte)
  | cueConflict (origin seq : Byte)
  | overflow (count : Nat)
  deriving DecidableEq, Repr

/-- An event record (R171). -/
structure EventRecord where
  kind : EventKind
  clock : Instant
  deriving DecidableEq, Repr

/-- The result codes (12.2). -/
inductive ResultCode
  | ok
  | none
  | wrongState
  | badArg
  | tooSoon
  | tooFar
  | quota
  | full
  | conflict
  | tooLate
  | notFound
  | empty
  | locked
  | unknownCommand
  | malformed
  deriving DecidableEq, Repr

/-- A cell tag (R67). -/
structure CellTag where
  members : Nat
  lowest : Byte
  deriving DecidableEq, Repr

/-- The status record (R168). -/
structure StatusRecord where
  station : StationState
  clock : Instant
  ownSlot : Option Slot
  tag : CellTag
  lastCorrection : Int
  cues : Nat
  ownCount : Nat
  nextSeq : Byte
  events : Nat
  lastCause : WakeCause
  dozed : Bool
  config : Option ConfigRecord
  deriving DecidableEq, Repr

/-- The payload of a response (R175). -/
inductive Payload
  | none
  | seq (n : Byte)
  | status (r : StatusRecord)
  | cue (e : CueEntry)
  | peer (e : PeerEntry)
  | slots (t : Vector SlotEntry 32)
  | event (e : EventRecord)
  deriving DecidableEq, Repr

/-- A response record (R163). -/
structure Response where
  result : ResultCode
  code : Byte
  lost : Bool
  payload : Payload
  deriving DecidableEq, Repr

/-- The host port (table before 11.1). `selected`: SELn is asserted; `fetching`: a FETCH is in progress, with the
bits of its record still to be shifted out (R164); `sdo`: the bits shifted out on SDO in the last transaction, first bit
first, true is 1 (R159), those of a FETCH's opening byte left out (log 15). -/
structure HostPort where
  config : Option ConfigRecord
  locked : Bool
  taken : List TakenRecord
  response : Option Response
  lost : Bool
  events : List EventRecord
  selected : Bool
  fetching : Option (List Bool)
  sdo : List Bool
  deriving DecidableEq, Repr

/-! ## The station -/

/-- The station. `resetting`: a cold reset is in progress, with its cause (R16, R172). `freeCount` numbers the
free choices of R98 (the model's own field, log 26). `pending`: the commands waiting, oldest first. -/
structure State where
  timer : RoundTimer
  line : LineUnit
  frame : FrameUnit
  member : Membership
  sync : SyncUnit
  cues : CueTable
  firing : FiringUnit
  power : PowerController
  port : HostPort
  resetting : Option ResetCause
  freeCount : Nat
  pending : List Instr
  deriving DecidableEq, Repr

/-! ## The values of a cold reset -/

/-- R16: 0:0, L 16384, no seam record. -/
def RoundTimer.reset : RoundTimer :=
  { clock := ⟨0, 0⟩, lengthCode := 0, seamRecord := none, counted := false, due := none }

/-- R32; no carrier is shown (log 25). -/
def LineUnit.reset : LineUnit :=
  { tx := .idle, rx := .disarmed, window := none, history := [], carrierNow := false, irrx := true, wave := [] }

/-- R50. -/
def FrameUnit.reset : FrameUnit :=
  { sending := none, waiting := [], items := [], itemsAge := 0 }

/-- The kind a slot has in an emptied table (R69). -/
def SlotKind.reset (k : Slot) : SlotKind := if k.val < 4 then .openSlot else .vacant

/-- The slot table of R69, with the given round of last outcome. -/
def slotTableReset (round : Round) : Vector SlotEntry 32 :=
  Vector.ofFn fun k => { kind := SlotKind.reset k, outcome := .unheard, outcomeRound := round }

/-- R70, R69, R68, R100. -/
def Membership.reset : Membership :=
  { station := .unconfigured, slots := slotTableReset 0, peers := [], lfsr := 0, surveyEntry := none,
    surveyEnd := none, target := none, claim := none, tries := 0, ownSlot := none, claimRound := none,
    cleanRounds := 0, strikeNow := false, strikeBefore := false, ownOutcome := none, backoff := 0,
    leavingBeacons := 0, candidate := none }

/-- R92. -/
def SyncUnit.reset : SyncUnit :=
  { samples := [], listRound := none, closedRound := none, lastCorrection := 0 }

/-- R125. -/
def CueTable.reset : CueTable := { entries := [], nextSeq := 0 }

/-- An IDLE, ACTIVE_HIGH line (R148). -/
def ActionLine.reset : ActionLine := { state := .idle, activeLow := false, ending := false }

/-- R148. -/
def FiringUnit.reset : FiringUnit := { lines := Vector.replicate 4 ActionLine.reset, reports := [] }

/-- R158. -/
def PowerController.reset : PowerController :=
  { state := .starting, wake := none, fullListenBar := false, lastCause := .none, dozed := false,
    startAge := 0 }

/-- R172, while the cold reset is in progress. -/
def HostPort.reset : HostPort :=
  { config := none, locked := false, taken := [], response := none, lost := false, events := [],
    selected := false, fetching := none, sdo := [] }

/-- The station right after the power-on cold reset has ended: counting is about to begin at 0:0 and
RESET_DONE (POWER_ON) stands in the event queue (R16, R172, log 6). -/
def State.reset : State :=
  { timer := RoundTimer.reset, line := LineUnit.reset, frame := FrameUnit.reset,
    member := Membership.reset, sync := SyncUnit.reset, cues := CueTable.reset,
    firing := FiringUnit.reset, power := PowerController.reset,
    port := { HostPort.reset with
      events := [{ kind := .resetDone .powerOn, clock := ⟨0, 0⟩ }] },
    resetting := none, freeCount := 0, pending := [] }

end Sys2Proof.Machine
end

