-- ==== Sys2Proof/Machine/Operands.lean ====
section
/-! DEFINITION. The forms of what comes in from outside: the levels of IRRX, half-cell by half-cell, and bits on SDI;
and the bytes of multi-byte fields. -/

namespace Sys2Proof.Machine

/-! ## Bytes and bits -/

/-- The bits of a byte, most significant first (R17, R159, R174). -/
def byteBits (b : Byte) : List Bool :=
  [b.getLsbD 7, b.getLsbD 6, b.getLsbD 5, b.getLsbD 4, b.getLsbD 3, b.getLsbD 2, b.getLsbD 1, b.getLsbD 0]

/-- The byte of eight bits, most significant first. -/
def bitsByte (bits : List Bool) : Byte :=
  bits.foldl (fun acc b => (acc <<< 1) ||| (if b then 1 else 0)) 0

/-- Three bytes, most significant first, as one 24-bit number. -/
def be24 (a b c : Byte) : BitVec 24 := a ++ b ++ c

/-- A 24-bit number as three bytes, most significant first. -/
def bytes24 (r : BitVec 24) : List Byte :=
  [r.extractLsb' 16 8, r.extractLsb' 8 8, r.extractLsb' 0 8]

/-- A 16-bit number as two bytes, most significant first. -/
def bytes16 (r : BitVec 16) : List Byte := [r.extractLsb' 8 8, r.extractLsb' 0 8]

/-- A 32-bit number as four bytes, most significant first. -/
def bytes32 (r : BitVec 32) : List Byte :=
  [r.extractLsb' 24 8, r.extractLsb' 16 8, r.extractLsb' 8 8, r.extractLsb' 0 8]

/-! ## Half-cells and cells (R17, R18, R176) -/

/-- Carrier is present while IRRX is low (R176). -/
def carrierOn (level : Bool) : Bool := !level

/-- A half-cell of which nothing has passed. -/
def HalfCell.start : HalfCell := { seen := 0, carrier := 0 }

/-- One more microsecond of a half-cell; after ten the half is judged, and the next begins: it carries a burst when
IRRX showed carrier for at least half of it (R17, log 5). -/
def HalfCell.take (h : HalfCell) (carrier : Bool) : HalfCell × Option Bool :=
  let n := h.carrier + carrier.toNat
  if h.seen < 9 then ({ seen := h.seen + 1, carrier := n }, none) else (HalfCell.start, some (decide (5 ≤ n)))

/-- A bit cell, judged. -/
inductive Cell
  | one
  | zero
  | double
  | silent
  deriving DecidableEq, Repr

/-- The two halves of a cell; true is a burst (R17). -/
def Cell.halves : Cell → List Bool
  | .one => [true, false]
  | .zero => [false, true]
  | .double => [true, true]
  | .silent => [false, false]

/-- The cell of two judged halves (R17). -/
def Cell.ofHalves (first second : Bool) : Cell :=
  match first, second with
  | true, false => .one
  | false, true => .zero
  | true, true => .double
  | false, false => .silent

/-- The start marker's eight cells (R18). -/
def marker : List Cell := [.double, .double, .one, .zero, .one, .zero, .one, .zero]

/-- The cell that codes a bit (R17). -/
def bitCell (b : Bool) : Cell := if b then .one else .zero

/-- The cells a frame of these bytes emits: marker, then eight cells a byte (R17, R18). -/
def emission (bytes : List Byte) : List Cell :=
  marker ++ bytes.flatMap fun b => (byteBits b).map bitCell

/-- The same in half-cells. -/
def emissionHalves (bytes : List Byte) : List Bool := (emission bytes).flatMap Cell.halves

/-! ## Candidate markers (R21) -/

/-- One more microsecond of a candidate; none once a half is not as the marker has it. -/
def MarkerCandidate.take (c : MarkerCandidate) (carrier : Bool) : Option MarkerCandidate :=
  match c.half.take carrier with
  | (h, none) => some { c with half := h }
  | (h, some burst) =>
    if (marker.flatMap Cell.halves)[c.halves]? = some burst then some { halves := c.halves + 1, half := h } else none

/-- All eight cells have been as the marker has them. -/
def MarkerCandidate.complete (c : MarkerCandidate) : Bool := decide (c.halves = 16)

/-- The candidates after one more microsecond; a change from no carrier to carrier begins one more. -/
def watchCandidates (candidates : List MarkerCandidate) (edge carrier : Bool) : List MarkerCandidate :=
  candidates.filterMap (fun c => c.take carrier) ++
    if edge then [{ halves := 0, half := (HalfCell.start.take carrier).1 }] else []

/-! ## Receiving cells (R22, R23). The Bool of each result: the reception has ended. -/

/-- A bit joins the partial byte; a full byte joins the list, unless it would be the 49th (R22, R23). -/
def Reception.takeBit (r : Reception) (b : Bool) : Reception × Bool :=
  let part := r.part ++ [b]
  if part.length < 8 then ({ r with part := part }, false)
  else if r.bytes.length < 48 then ({ r with bytes := r.bytes ++ [bitsByte part], part := [] }, false)
  else ({ r with part := [], damaged := true }, true)

/-- A held-back silent cell that another kind of cell follows damages the reception (R22). -/
def Reception.dropHeld (r : Reception) : Reception :=
  if r.silentHeld then { r with silentHeld := false, damaged := true } else r

/-- The receiver decodes one cell (R22, R23). -/
def Reception.takeCell (r : Reception) (c : Cell) : Reception × Bool :=
  match c with
  | .silent =>
    if r.silentHeld then ({ r with part := [], damaged := r.damaged || !r.part.isEmpty }, true)
    else ({ r with silentHeld := true }, false)
  | .double => ({ r.dropHeld with damaged := true }, false)
  | .one => r.dropHeld.takeBit true
  | .zero => r.dropHeld.takeBit false

/-- One more microsecond of a reception; at the end of every second half a cell is decoded. -/
def Reception.take (r : Reception) (carrier : Bool) : Reception × Bool :=
  match r.half.take carrier with
  | (h, none) => ({ r with half := h }, false)
  | (h, some burst) =>
    match r.first with
    | none => ({ r with half := h, first := some burst }, false)
    | some first => { r with half := h, first := none }.takeCell (Cell.ofHalves first burst)

/-! ## The line unit along IRRX (R21 to R23, R26, R27) -/

/-- What comes about at the line unit at a moment of IRRX. -/
inductive LineEvent
  | marker
  | receptionEnd
  | collided
  | sent
  deriving DecidableEq, Repr

/-- One more microsecond of an emission: each half is checked as it ends, but for the four of the closing silence,
at whose end the frame is sent (R26, R27). -/
def checkEcho (f : OutFrame) (halves : Nat) (half : HalfCell) (carrier : Bool) :
    Nat × HalfCell × Option LineEvent :=
  match half.take carrier with
  | (h, none) => (halves, h, none)
  | (h, some burst) =>
    match (emissionHalves f.bytes)[halves]? with
    | some emitted => (halves + 1, h, if burst = emitted then none else some .collided)
    | none =>
      (halves + 1, h, if (emissionHalves f.bytes).length + 4 ≤ halves + 1 then some .sent else none)

/-- The line unit at one microsecond in which IRRX shows `level`, and what comes about at its end. -/
def LineUnit.sample (l : LineUnit) (level : Bool) : LineUnit × Option LineEvent :=
  let on := carrierOn level
  let edge := on && !carrierOn l.irrx
  let l := { l with irrx := level }
  match l.tx with
  | .sending f n h =>
    let (n, h, event) := checkEcho f n h on
    ({ l with tx := .sending f n h }, event)
  | .idle | .pending _ =>
    match l.rx with
    | .armed candidates =>
      let candidates := watchCandidates candidates edge on
      ({ l with rx := .armed candidates },
        if candidates.any MarkerCandidate.complete then some .marker else none)
    | .receiving r =>
      let (r, ended) := r.take on
      ({ l with rx := .receiving r }, if ended then some .receptionEnd else none)
    | .disarmed | .echo => (l, none)

/-- The line unit along some microseconds of IRRX up to the first at which something comes about: the microseconds
still to come, and what it is; none if nothing does. -/
def LineUnit.along (l : LineUnit) : List Bool → Option (LineUnit × LineEvent)
  | [] => none
  | level :: rest =>
    match { l with wave := rest }.sample level with
    | (l, some event) => some (l, event)
    | (l, none) => l.along rest

/-- The next thing to come about in the rest of the present LF period (log 25). -/
def LineUnit.next (l : LineUnit) : Option (LineUnit × LineEvent) := l.along l.wave

/-! ## Bits on SDI (R159, R160, R175) -/

/-- The whole bytes of the bits shifted in; bits after the last whole byte are discarded (R159). -/
def wholeBytes : List Bool → List Byte
  | a :: b :: c :: d :: e :: f :: g :: h :: rest => bitsByte [a, b, c, d, e, f, g, h] :: wholeBytes rest
  | _ => []

/-- The FETCH code (R175). -/
def fetchCode : Byte := 0xF0

/-- The parameter length of a known command code (R175); none for an unknown one. -/
def parameterLength (code : Byte) : Option Nat :=
  match code.toNat with
  | 0x01 => some 6
  | 0x02 => some 0
  | 0x03 => some 0
  | 0x04 => some 0
  | 0x05 => some 10
  | 0x06 => some 1
  | 0x07 => some 0
  | 0x08 => some 1
  | 0x09 => some 1
  | 0x0A => some 0
  | 0x0B => some 0
  | _ => none

/-- The well-formed command of a code and its parameters, if they are as many as the code asks (R175). -/
def readCommand (code : Byte) (params : List Byte) : Option HostCommand :=
  match code.toNat, params with
  | 0x01, [id, len, mask, pol, doze, cur] => some (.configure ⟨id, len, mask, pol, doze, cur⟩)
  | 0x02, [] => some .start
  | 0x03, [] => some .leave
  | 0x04, [] => some .restart
  | 0x05, [line, action, width, mask, r2, r1, r0, p2, p1, p0] =>
    some (.post ⟨line, action, width, mask, be24 r2 r1 r0, be24 p2 p1 p0⟩)
  | 0x06, [seq] => some (.withdraw seq)
  | 0x07, [] => some .readStatus
  | 0x08, [index] => some (.readCue index)
  | 0x09, [index] => some (.readPeer index)
  | 0x0A, [] => some .readSlots
  | 0x0B, [] => some .takeEvent
  | _, _ => none

/-- The port's judgement of a record: the opening byte and the bytes after it (R160). -/
def judgeRecord (code : Byte) (rest : List Byte) : TakenRecord :=
  match parameterLength code with
  | none => .unknown code
  | some n =>
    match rest with
    | [] => .malformed code
    | len :: params =>
      if len.toNat = n ∧ params.length = n then
        match readCommand code params with
        | some c => .command c
        | none => .malformed code
      else .malformed code

/-- The code of a command (R175). -/
def HostCommand.code : HostCommand → Byte
  | .configure _ => 0x01
  | .start => 0x02
  | .leave => 0x03
  | .restart => 0x04
  | .post _ => 0x05
  | .withdraw _ => 0x06
  | .readStatus => 0x07
  | .readCue _ => 0x08
  | .readPeer _ => 0x09
  | .readSlots => 0x0A
  | .takeEvent => 0x0B

/-- The parameters of a command, in order (R175). -/
def HostCommand.params : HostCommand → List Byte
  | .configure r => [r.id, r.lengthCode, r.mask, r.polarities, r.doze, r.current]
  | .post p =>
    [p.line, p.action, p.width, p.mask] ++ (bytes24 p.dueRound ++ bytes24 p.duePhase)
  | .withdraw n => [n]
  | .readCue i => [i]
  | .readPeer i => [i]
  | .start | .leave | .restart | .readStatus | .readSlots | .takeEvent => []

end Sys2Proof.Machine
end

