-- ==== Sys2Proof/Machine/Frames.lean ====
section
/-! DEFINITION. The frames on the medium: layouts, check sequence and validation (R34 to R36, R43, R173, R174). -/

namespace Sys2Proof.Machine

/-- A frame's fields (R34, R35). -/
inductive Frame
  | beacon (flag : BeaconFlag) (sender : Byte) (round : Round) (slot : Slot) (members lowest : Byte)
      (garbled : BitVec 32) (items : List CarryItem)
  | claim (sender : Byte) (round : Round) (position : Fin 16) (target : Slot)
  deriving DecidableEq, Repr

/-! ## CRC-16 (R174) -/

/-- One data bit. -/
def crcBit (r : BitVec 16) (b : Bool) : BitVec 16 :=
  if (b ^^ r.getLsbD 15) then (r <<< 1) ^^^ 0x1021 else r <<< 1

/-- The CRC-16 of some bytes. -/
def crc16 (bytes : List Byte) : BitVec 16 :=
  bytes.foldl (fun r b => (byteBits b).foldl crcBit r) 0xA55A

/-! ## Codes (R173) -/

def BeaconFlag.code : BeaconFlag → Byte
  | .tentative => 0xB1
  | .settled => 0xB2
  | .leaving => 0xB3

def claimCode : Byte := 0xC5

def ItemKind.code : ItemKind → Nat
  | .cue => 1
  | .withdrawal => 2

def Action.code : Action → Nat
  | .pulse => 1
  | .on => 2
  | .off => 3
  | .toggle => 4

/-- The action of a code; a code of 0 or 5 and above names none (R173). -/
def actionOfCode (n : Nat) : Option Action :=
  match n with
  | 1 => some .pulse
  | 2 => some .on
  | 3 => some .off
  | 4 => some .toggle
  | _ => none

def itemKindOfCode (n : Nat) : Option ItemKind :=
  match n with
  | 1 => some .cue
  | 2 => some .withdrawal
  | _ => none

def flagOfCode (b : Byte) : Option BeaconFlag :=
  match b.toNat with
  | 0xB1 => some .tentative
  | 0xB2 => some .settled
  | 0xB3 => some .leaving
  | _ => none

/-! ## Building -/

/-- Bits 7–6 a kind, bits 5–4 an action line, bits 3–0 an action (R173, R175). -/
def itemHead (kind : Nat) (line : Fin 4) (action : Action) : Byte :=
  BitVec.ofNat 8 (kind * 64 + line.val * 16 + action.code)

/-- The eleven bytes of a carry item (R173). -/
def CarryItem.bytes (i : CarryItem) : List Byte :=
  itemHead i.kind.code i.line i.action :: i.origin :: i.seq ::
    (bytes24 i.due.round ++ bytes24 (BitVec.ofNat 24 i.due.phase) ++ [i.width, i.mask])

/-- A frame's bytes before its CRC (R173). -/
def Frame.body : Frame → List Byte
  | .beacon flag sender round slot members lowest garbled items =>
    flag.code :: sender :: (bytes24 round ++ [BitVec.ofNat 8 slot.val, members, lowest] ++
      bytes32 garbled ++ [BitVec.ofNat 8 items.length] ++ items.flatMap CarryItem.bytes)
  | .claim sender round position target =>
    claimCode :: sender ::
      (bytes24 round ++ [BitVec.ofNat 8 position.val, BitVec.ofNat 8 target.val])

/-- A frame's bytes with the CRC, high byte first (R174). -/
def Frame.bytes (f : Frame) : List Byte := f.body ++ bytes16 (crc16 f.body)

/-! ## Validation (R43) -/

/-- An id 1 to 254. -/
def validId (b : Byte) : Bool := decide (1 ≤ b.toNat ∧ b.toNat ≤ 254)

/-- A claimable slot number, 4 to 31. -/
def claimableOf (b : Byte) : Option Slot :=
  if h : 4 ≤ b.toNat ∧ b.toNat < 32 then some ⟨b.toNat, h.2⟩ else none

/-- A well-formed carry item from its eleven bytes, judged with this station's L (R43). -/
def readItem (L : Nat) (head origin seq r2 r1 r0 p2 p1 p0 width mask : Byte) : Option CarryItem :=
  match itemKindOfCode (head.toNat / 64), actionOfCode (head.toNat % 16) with
  | some kind, some action =>
    if validId origin ∧ mask ≠ 0 ∧ (action = .pulse → width ≠ 0) ∧ (be24 p2 p1 p0).toNat < L then
      some { kind := kind, line := ⟨head.toNat / 16 % 4, Nat.mod_lt _ (by decide)⟩, action := action,
             origin := origin, seq := seq, due := ⟨be24 r2 r1 r0, (be24 p2 p1 p0).toNat⟩,
             width := width, mask := mask }
    else none
  | _, _ => none

/-- `n` carry items followed by exactly the two CRC bytes. -/
def readItems (L : Nat) : Nat → List Byte → Option (List CarryItem)
  | 0, [_, _] => some []
  | n + 1, a :: b :: c :: d :: e :: f :: g :: h :: i :: j :: k :: rest =>
    match readItem L a b c d e f g h i j k, readItems L n rest with
    | some item, some items => some (item :: items)
    | _, _ => none
  | _, _ => none

/-- The fields of a reception's bytes, if kind, length, ranges and items are right (R43, R173). -/
def readFields (L : Nat) (own : Byte) (bytes : List Byte) : Option Frame :=
  match bytes with
  | kind :: sender :: r2 :: r1 :: r0 :: rest =>
    if validId sender ∧ sender ≠ own then
      match flagOfCode kind, rest with
      | some flag, slot :: members :: lowest :: g3 :: g2 :: g1 :: g0 :: count :: tail =>
        if 1 ≤ members.toNat ∧ members.toNat ≤ 28 ∧ validId lowest ∧ count.toNat ≤ 3 then
          match claimableOf slot, readItems L count.toNat tail with
          | some k, some items =>
            some (.beacon flag sender (be24 r2 r1 r0) k members lowest (g3 ++ g2 ++ g1 ++ g0) items)
          | _, _ => none
        else none
      | none, [position, target, _, _] =>
        if h : kind = claimCode ∧ position.toNat < 16 then
          match claimableOf target with
          | some k => some (.claim sender (be24 r2 r1 r0) ⟨position.toNat, h.2⟩ k)
          | none => none
        else none
      | _, _ => none
    else none
  | _ => none

/-- The CRC over every byte before the last two equals the last two; fewer than 3 bytes have none (R174). -/
def crcMatches (bytes : List Byte) : Bool :=
  decide (3 ≤ bytes.length) &&
    decide (bytes.drop (bytes.length - 2) = bytes16 (crc16 (bytes.take (bytes.length - 2))))

/-- The valid frame a reception is, or none when it is invalid (R43). -/
def readFrame (L : Nat) (own : Byte) (condition : Condition) (bytes : List Byte) : Option Frame :=
  if condition = .complete ∧ crcMatches bytes then readFields L own bytes else none

/-! ## Nominal instants and the map -/

def Frame.round : Frame → Round
  | .beacon _ _ r _ _ _ _ _ => r
  | .claim _ r _ _ => r

def Frame.sender : Frame → Byte
  | .beacon _ s _ _ _ _ _ _ => s
  | .claim s _ _ _ => s

/-- The frame's nominal instant on the sender's timeline, with this station's S (R45). -/
def Frame.nominal (code : Fin 4) : Frame → Instant
  | .beacon _ _ r k _ _ _ _ => ⟨r, beaconStartPhase code k + 5⟩
  | .claim _ r n _ => ⟨r, claimStartPhase code n + 5⟩

/-- Native: the offset lies between −32 and +32 inclusive (R46). -/
def isNative (offset : Int) : Bool := decide (-32 ≤ offset ∧ offset ≤ 32)

/-- The map's flag for slot `k`: slot 0 is the most significant bit of byte 8 (R173). -/
def garbledFlag (map : BitVec 32) (k : Slot) : Bool := map.getMsbD k.val

/-- The map with the flags of a test set. -/
def garbledMapOf (f : Slot → Bool) : BitVec 32 :=
  (List.finRange 32).foldl (fun acc k => (acc <<< 1) ||| (if f k then 1 else 0)) 0

end Sys2Proof.Machine
end

