-- ==== Sys2Proof/Machine/Ops.lean ====
section
/-! DEFINITION. The named operations over the station's blocks: updates, events, responses, the LFSR, the slot
and peer tables, cutting off the line, and the entries into states. -/

namespace Sys2Proof.Machine

/-! ## One block at a time -/

def State.updTimer (f : RoundTimer → RoundTimer) (s : State) : State := { s with timer := f s.timer }
def State.updLine (f : LineUnit → LineUnit) (s : State) : State := { s with line := f s.line }
def State.updFrame (f : FrameUnit → FrameUnit) (s : State) : State := { s with frame := f s.frame }
def State.updMember (f : Membership → Membership) (s : State) : State := { s with member := f s.member }
def State.updSync (f : SyncUnit → SyncUnit) (s : State) : State := { s with sync := f s.sync }
def State.updCues (f : CueTable → CueTable) (s : State) : State := { s with cues := f s.cues }
def State.updFiring (f : FiringUnit → FiringUnit) (s : State) : State := { s with firing := f s.firing }
def State.updPower (f : PowerController → PowerController) (s : State) : State :=
  { s with power := f s.power }
def State.updPort (f : HostPort → HostPort) (s : State) : State := { s with port := f s.port }

/-! ## What the conditions read -/

/-- L, the round length in force (R2). -/
def State.L (s : State) : Nat := roundLength s.timer.lengthCode

/-- S, the slot length (R6). -/
def State.S (s : State) : Nat := slotLength s.timer.lengthCode

/-- The round clock now. -/
abbrev State.now (s : State) : Instant := s.timer.clock

/-- No cold reset is in progress. -/
abbrev State.Running (s : State) : Prop := s.resetting = none

/-- The HF-domain blocks act (R149). -/
abbrev State.Awake (s : State) : Prop := s.resetting = none ∧ s.power.state = .awake

/-- The configured station id; 0 before CONFIGURE (log 9). -/
def State.ownId (s : State) : Byte :=
  match s.port.config with
  | some c => c.id
  | none => 0

/-- The states in which a candidate is kept, a correction computed and the listen plan used (R66, R94, R100). -/
def StationState.inCell : StationState → Bool
  | .claiming | .tentative | .settled | .backoff | .leaving => true
  | .unconfigured | .ready | .survey => false

/-! ## Events (R171) -/

/-- An event is appended, counted into OVERFLOW, or turned into an OVERFLOW record. -/
def appendEvent (events : List EventRecord) (e : EventRecord) : List EventRecord :=
  match events.getLast? with
  | some ⟨.overflow n, c⟩ => events.dropLast ++ [⟨.overflow (min 255 (n + 1)), c⟩]
  | _ => if events.length < 15 then events ++ [e] else events ++ [⟨.overflow 1, e.clock⟩]

/-- A block queues an event; the record holds the clock at the append (R3). -/
def State.queue (k : EventKind) (s : State) : State :=
  s.updPort fun p => { p with events := appendEvent p.events ⟨k, s.timer.clock⟩ }

/-- Several events, in order. -/
def State.queueAll (ks : List EventKind) (s : State) : State := ks.foldl (fun s k => s.queue k) s

/-! ## Responses (R163) -/

/-- A response is written into the buffer; LOST when it replaces one or the lost mark is set. -/
def HostPort.respond (p : HostPort) (result : ResultCode) (code : Byte) (payload : Payload) : HostPort :=
  { p with
    response := some { result := result, code := code, lost := p.response.isSome || p.lost, payload := payload },
    lost := false }

/-! ## The LFSR (R68) -/

/-- One step. -/
def lfsrStep (v : BitVec 16) : BitVec 16 :=
  (v <<< 1) ||| (if (v.getLsbD 15 ^^ v.getLsbD 13 ^^ v.getLsbD 12 ^^ v.getLsbD 10) then 1 else 0)

/-- `n` steps. -/
def lfsrSteps : Nat → BitVec 16 → BitVec 16
  | 0, v => v
  | n + 1, v => lfsrSteps n (lfsrStep v)

/-- The register after a draw's 16 steps. -/
def lfsrDraw (v : BitVec 16) : BitVec 16 := lfsrSteps 16 v

/-- The seed of a station id at a phase. -/
def lfsrSeed (id : Byte) (phase : Nat) : BitVec 16 :=
  let v := BitVec.ofNat 16 (id.toNat * 257) ^^^ BitVec.ofNat 16 phase
  if v = 0 then 1 else v

/-! ## The slot table (4.1, 4.2) -/

/-- The kind of slot `k`. -/
def Membership.kind (m : Membership) (k : Slot) : SlotKind := (m.slots[k]).kind

/-- Slot `k` gets another kind; its outcome is kept. -/
def Membership.setKind (m : Membership) (k : Slot) (kind : SlotKind) : Membership :=
  { m with slots := m.slots.set k { m.slots[k] with kind := kind } }

/-- Every slot's kind by a function. -/
def Membership.mapKinds (m : Membership) (f : Slot → SlotKind → SlotKind) : Membership :=
  { m with slots := Vector.ofFn fun k => { m.slots[k] with kind := f k (m.slots[k]).kind } }

/-- How strong an outcome is when two are combined (R52). -/
def SlotOutcome.strength : SlotOutcome → Nat
  | .unheard => 0
  | .silent => 1
  | .clean => 2
  | .garbled => 3

/-- An entry takes an outcome for a listening round (R52). -/
def SlotEntry.take (e : SlotEntry) (o : SlotOutcome) (round : Round) : SlotEntry :=
  if e.outcomeRound ≠ round then { e with outcome := o, outcomeRound := round }
  else if e.outcome.strength < o.strength then { e with outcome := o }
  else e

/-- An outcome is recorded for a slot and a listening round (R52). -/
def Membership.record (m : Membership) (k : Slot) (o : SlotOutcome) (round : Round) : Membership :=
  { m with slots := m.slots.set k ((m.slots[k]).take o round) }

/-- A peer beacons in slot `k` as far as it reports (R58). -/
def PeerEntry.beaconsIn (p : PeerEntry) (k : Slot) : Bool :=
  decide (p.slot = some k) && decide (p.state ≠ .claimant)

/-- What holder release makes of slot `k`: OCCUPIED by the lowest id among the other peers reporting it, or VACANT
(R58). The peer table is in ascending order of id. -/
def Membership.heir (m : Membership) (k : Slot) (giver : Option Byte) : SlotKind :=
  match m.peers.find? fun p => p.beaconsIn k && decide (some p.id ≠ giver) with
  | some p => .occupied p.id
  | none => .vacant

/-- Holder release (R58). -/
def Membership.release (m : Membership) (k : Slot) (giver : Option Byte) : Membership :=
  m.setKind k (m.heir k giver)

/-- Holder release where slot `k` is OCCUPIED with the lost peer `id` as holder (R63, R64, log 11). -/
def Membership.releaseIfHolder (m : Membership) (k : Slot) (id : Byte) : Membership :=
  if m.kind k = .occupied id then m.release k (some id) else m

/-- Holder release on every slot but `kept` that station `id`, in the peer table or not, holds as OCCUPIED: it has
been heard claiming, or beaconing in `kept` (R56, R58, R61, R62). -/
def Membership.giveUp (m : Membership) (id : Byte) (kept : Option Slot) : Membership :=
  m.mapKinds fun k kind => if kind = .occupied id ∧ some k ≠ kept then m.heir k (some id) else kind

/-- Is slot `k` one of the claimable slots (R6)? -/
def claimable (k : Slot) : Bool := decide (4 ≤ k.val)

/-- The VACANT claimable slots in ascending order (R68). -/
def Membership.vacant (m : Membership) : List Slot :=
  (List.finRange 32).filter fun k => claimable k && decide (m.kind k = .vacant)

/-! ## The peer table (4.3) -/

/-- The entry of a peer. -/
def Membership.peer? (m : Membership) (id : Byte) : Option PeerEntry :=
  m.peers.find? fun p => decide (p.id = id)

/-- An entry at its place in ascending order of id (R59). -/
def insertPeer (e : PeerEntry) : List PeerEntry → List PeerEntry
  | [] => [e]
  | p :: rest => if e.id.toNat < p.id.toNat then e :: p :: rest else p :: insertPeer e rest

/-- The entry of a peer is changed in place. -/
def Membership.updPeer (m : Membership) (id : Byte) (f : PeerEntry → PeerEntry) : Membership :=
  { m with peers := m.peers.map fun p => if p.id = id then f p else p }

/-- A peer is removed; where it holds its slot, the slot is released; PEER_LOST is queued (R63 to R65, log 11). -/
def State.losePeer (p : PeerEntry) (reason : LostReason) (s : State) : State :=
  let s := s.updMember fun m => { m with peers := m.peers.filter fun q => decide (q.id ≠ p.id) }
  let s := match p.slot with
    | some k => s.updMember fun m => m.releaseIfHolder k p.id
    | none => s
  s.queue (.peerLost p.id p.slot reason)

/-! ## The own cell tag (R67) -/

/-- The own cell tag of a controller with this station id. -/
def Membership.tag (m : Membership) (own : Byte) : CellTag :=
  let settled := (m.peers.filter fun p => decide (p.state = .settled)).map PeerEntry.id
  let ids := if m.station = .settled then own :: settled else settled
  { members := max 1 (min 28 ids.length)
    lowest := match ids with
      | [] => own
      | i :: rest => rest.foldl (fun a b => if b.toNat < a.toNat then b else a) i }

/-- The own cell tag. -/
def State.tag (s : State) : CellTag := s.member.tag s.ownId

/-! ## The listen plan (R66) -/

/-- Slot `k` is in the plan for a round. -/
def Membership.planned (m : Membership) (k : Slot) (round : Round) : Bool :=
  fullListen round || decide (m.kind k ≠ .vacant)

/-! ## Arming and cutting off (R19, R20, R33) -/

/-- The receiver is to be ARMED: while surveying and in an open window (R19, R20). -/
def State.listens (s : State) : Bool := decide (s.member.station = .survey) || s.line.window.isSome

/-- What a receiver is that goes back to listening or not: newly ARMED, or DISARMED (R19, R20). -/
def State.restingRx (s : State) : Receiver := if s.listens then .armed [] else .disarmed

/-- A receiver that is neither RECEIVING nor in ECHO follows state and window; one that stays ARMED keeps its
candidates (R19, R21). -/
def State.rearm (s : State) : State :=
  match s.line.rx with
  | .disarmed => s.updLine fun l => { l with rx := s.restingRx }
  | .armed candidates => s.updLine fun l => { l with rx := if s.listens then .armed candidates else .disarmed }
  | .receiving _ | .echo => s

/-- The receiver after a reception or a transmission has ended (R23, R26). -/
def State.freeRx (s : State) : State := s.updLine fun l => { l with rx := s.restingRx }

/-- A frame of this kind still PENDING is withdrawn: nothing is reported or sent (R41, R77). -/
def State.withdrawFrame (kind : FrameKind) (s : State) : State :=
  match s.line.tx with
  | .pending f =>
    if f.kind = kind then
      (s.updLine fun l => { l with tx := .idle }).updFrame fun u => { u with sending := none }
    else s
  | .idle | .sending _ _ _ => s

/-- The line unit is cut off and does not report; the carrier history is kept (R33). -/
def LineUnit.cutOff (l : LineUnit) : LineUnit := { l with tx := .idle, rx := .disarmed, window := none }

/-- A reception is handed to the frame unit (R23, R29, R37). -/
def State.handReception (r : Reception) (condition : Condition) (s : State) : State :=
  s.updFrame fun u =>
    { u with waiting := u.waiting ++
        [{ arrival := r.arrival, slot := r.slot, bytes := r.bytes, condition := condition, age := 0 }] }

/-- A frame is handed to the line unit; an idle transmitter takes it (R25, log 17). -/
def State.handFrame (frame : OutFrame) (handed : Handed) (s : State) : State :=
  match s.line.tx with
  | .idle =>
    (s.updLine fun l => { l with tx := .pending frame }).updFrame fun u => { u with sending := some handed }
  | .pending _ | .sending _ _ _ => s

/-! ## Station states (R70 to R91) -/

/-- Every item of R70 absent or zero. -/
def Membership.clearItems (m : Membership) : Membership :=
  { m with surveyEntry := none, surveyEnd := none, target := none, claim := none, tries := 0,
           ownSlot := none, claimRound := none, cleanRounds := 0, strikeNow := false, strikeBefore := false,
           ownOutcome := none, backoff := 0, leavingBeacons := 0 }

/-- The station enters BACKOFF with a backoff remaining (R76, R79, R86). -/
def State.enterBackoff (n : Nat) (s : State) : State :=
  (s.updMember fun m => { m.clearItems with station := .backoff, backoff := n }).rearm

/-- The register makes a draw; the backoff length is 1 to 8 (R68). -/
def State.drawBackoff (s : State) : State :=
  let v := lfsrDraw s.member.lfsr
  (s.updMember fun m => { m with lfsr := v }).enterBackoff (1 + v.toNat % 8)

/-- A target is drawn among the VACANT slots, or CELL_FULL is queued and BACKOFF (8) entered (R76, R77). -/
def State.drawTarget (s : State) : State :=
  match s.member.vacant with
  | [] => (s.queue .cellFull).enterBackoff 8
  | k :: rest =>
    let v := lfsrDraw s.member.lfsr
    s.updMember fun m =>
      { m with lfsr := v, target := some ((k :: rest).getD (v.toNat % (rest.length + 1)) k) }

/-- The station enters CLAIMING (R76). -/
def State.enterClaiming (s : State) : State :=
  (s.updMember fun m => { m.clearItems with station := .claiming }).rearm.drawTarget

/-- A claim position is drawn and held with the target as the claim in hand (R78). -/
def State.drawPosition (s : State) : State :=
  match s.member.station, s.member.target with
  | .claiming, some t =>
    let v := lfsrDraw s.member.lfsr
    s.updMember fun m =>
      { m with lfsr := v, claim := some { position := ⟨v.toNat % 16, Nat.mod_lt _ (by decide)⟩, target := t } }
  | _, _ => s

/-- The target is discarded and a new one drawn; the claim in hand goes with it (R77). -/
def State.redrawTarget (s : State) : State :=
  ((s.withdrawFrame .claim).updMember fun m => { m with target := none, claim := none }).drawTarget

/-- The station yields its own slot (R86). -/
def State.yieldSlot (s : State) : State :=
  match s.member.ownSlot with
  | some k =>
    (((s.updMember fun m => m.release k none).withdrawFrame .beacon).queue (.yielded k)).drawBackoff
  | none => s

/-- The tables are reset; the outcomes carry the current round (R69). -/
def State.resetTables (s : State) : State :=
  s.updMember fun m => { m with slots := slotTableReset s.timer.clock.round, peers := [] }

/-! ## Strikes (R82, R83) -/

/-- A strike describing `round` is not disregarded: it describes the current round or the one before, and in
TENTATIVE no round before the claim round (R82). -/
def State.strikeCounts (s : State) (round : Round) : Bool :=
  decide (round = s.timer.clock.round ∨ round = s.timer.clock.round - 1) &&
    match s.member.station, s.member.claimRound with
    | .tentative, some c => !roundsBack round c 1
    | _, _ => true

/-- The flag of the strike record that a strike describing `round` sets (R82). -/
def Membership.markStrike (m : Membership) (now round : Round) : Membership :=
  if round = now then { m with strikeNow := true } else { m with strikeBefore := true }

/-- A strike describing `round`, from `reporter` or from the echo check: its flag is set, STRIKE queued, and a
TENTATIVE station yields (R82, R83). -/
def State.takeStrike (round : Round) (reporter : Option Byte) (s : State) : State :=
  match s.member.ownSlot with
  | none => s
  | some k =>
    if s.strikeCounts round then
      let s := (s.updMember fun m => m.markStrike s.timer.clock.round round).queue (.strike k reporter)
      if s.member.station = .tentative then s.yieldSlot else s
    else s

end Sys2Proof.Machine
end

