-- ==== Sys2Proof/Machine/Cues.lean ====
section
/-! DEFINITION. The cue table: order, insertion, eviction, posts, items, carry selection, retirement (chapters 7
and 8). -/

namespace Sys2Proof.Machine

/-! ## Keys and order (R106, R107) -/

/-- The entry has this key. -/
def CueEntry.hasKey (e : CueEntry) (origin seq : Byte) : Bool :=
  decide (e.origin = origin ∧ e.seq = seq)

/-- The entry is PENDING or WITHDRAWN. -/
def CueEntry.active (e : CueEntry) : Bool :=
  match e.state with
  | .pending | .withdrawn => true
  | .retired _ => false

/-- The entry is RETIRED. -/
def CueEntry.isRetired (e : CueEntry) : Bool := !e.active

/-- `a` stands before `b` in the table: due instant, then origin id, then sequence number (R107). -/
def CueEntry.before (L : Nat) (a b : CueEntry) : Bool :=
  let d := instantDiff L a.due b.due
  decide (d < 0 ∨ (d = 0 ∧ (a.origin.toNat < b.origin.toNat ∨
    (a.origin = b.origin ∧ a.seq.toNat < b.seq.toNat))))

/-- An entry is inserted at its place (R107). -/
def insertCue (L : Nat) (e : CueEntry) : List CueEntry → List CueEntry
  | [] => [e]
  | x :: rest => if e.before L x then e :: x :: rest else x :: insertCue L e rest

/-- The entry holding a key. -/
def findCue (entries : List CueEntry) (origin seq : Byte) : Option CueEntry :=
  entries.find? fun e => e.hasKey origin seq

/-- The entry holding a key is changed in place. -/
def updateCue (entries : List CueEntry) (origin seq : Byte) (f : CueEntry → CueEntry) : List CueEntry :=
  entries.map fun e => if e.hasKey origin seq then f e else e

/-- The entry holding a key is removed. -/
def removeCue (entries : List CueEntry) (origin seq : Byte) : List CueEntry :=
  entries.filter fun e => !e.hasKey origin seq

/-- The own count (R108). -/
def ownCount (entries : List CueEntry) : Nat := (entries.filter fun e => e.own && e.active).length

/-! ## Making room (R117, R118) -/

/-- A PENDING entry of another origin: a possible victim (R118). -/
def CueEntry.evictable (e : CueEntry) : Bool := decide (e.state = .pending) && !e.own

/-- The table after making room for a newcomer due at `due`, with the events; none when it is refused. With
the table in order, the latest due of several is the last one. -/
def makeRoom (L : Nat) (now due : Instant) (entries : List CueEntry) :
    Option (List CueEntry × List EventKind) :=
  if entries.length < 24 then some (entries, [])
  else match entries.find? fun e => e.isRetired && decide (instantDiff L e.due now ≤ 0) with
    | some e => some (removeCue entries e.origin e.seq, [])
    | none =>
      match entries.reverse.find? CueEntry.evictable with
      | some v =>
        if instantDiff L due v.due < 0 then
          some (removeCue entries v.origin v.seq, [.cueEvicted v.origin v.seq])
        else none
      | none => none

/-! ## Posting (R110, R111) -/

/-- The line, action and width a POST names, when its field check passes (R110). -/
def postFields (L : Nat) (p : PostParams) : Option (Fin 4 × Action) :=
  match actionOfCode p.action.toNat with
  | some action =>
    if h : p.line.toNat < 4 then
      if p.mask ≠ 0 ∧ (action = .pulse → p.width ≠ 0) ∧ p.duePhase.toNat < L then
        some (⟨p.line.toNat, h⟩, action)
      else none
    else none
  | none => none

/-- A POST taken in SETTLED: the table after it, the events, the result and the sequence number it carries. The checks
are those of R110's table in their order; where a due instant lies so far ahead that the prose of R110 calls it
TOO_SOON and its Lead check passes it, the check is followed (log 33). -/
def postCue (L : Nat) (now : Instant) (own : Byte) (p : PostParams) (t : CueTable) :
    CueTable × List EventKind × ResultCode × Payload :=
  match postFields L p with
  | none => (t, [], .badArg, .none)
  | some (line, action) =>
    let due : Instant := ⟨p.dueRound, p.duePhase.toNat⟩
    if instantDiff L due (instantAddRounds now 2) < 0 then (t, [], .tooSoon, .none)
    else if 0 < instantDiff L due (instantAddRounds now 4096) then (t, [], .tooFar, .none)
    else if 8 ≤ ownCount t.entries then (t, [], .quota, .none)
    else
      let n := t.nextSeq
      let t' := { t with nextSeq := n + 1 }
      if (findCue t.entries own n).isSome then (t', [], .conflict, .seq n)
      else match makeRoom L now due t.entries with
        | none => (t', [], .full, .seq n)
        | some (entries, events) =>
          let e : CueEntry :=
            { origin := own, seq := n, due := due, line := line, action := action, width := p.width,
              mask := p.mask, state := .pending, forward := 0, own := true }
          ({ t' with entries := insertCue L e entries }, events, .ok, .seq n)

/-! ## Withdrawing (R112) -/

/-- PENDING becomes WITHDRAWN with forward count 0. -/
def CueEntry.withdraw (e : CueEntry) : CueEntry := { e with state := .withdrawn, forward := 0 }

/-- A WITHDRAW that is taken: the entries after it and the result. -/
def withdrawCue (own seq : Byte) (entries : List CueEntry) : List CueEntry × ResultCode :=
  match findCue entries own seq with
  | none => (entries, .notFound)
  | some e =>
    match e.state with
    | .pending => (updateCue entries own seq CueEntry.withdraw, .ok)
    | .withdrawn => (entries, .ok)
    | .retired _ => (entries, .tooLate)

/-! ## Carry items (R113 to R116) -/

/-- Item and entry have identical content (R114). -/
def CarryItem.sameContent (i : CarryItem) (e : CueEntry) : Bool :=
  decide (i.due = e.due ∧ i.line = e.line ∧ i.action = e.action ∧ i.mask = e.mask ∧
    (i.action = .pulse → i.width = e.width))

/-- The entry an item is inserted as: PENDING, or a tombstone (R116). -/
def CarryItem.toEntry (i : CarryItem) : CueEntry :=
  { origin := i.origin, seq := i.seq, due := i.due, line := i.line, action := i.action, width := i.width,
    mask := i.mask, forward := 0, own := false,
    state := match i.kind with
      | .cue => .pending
      | .withdrawal => .withdrawn }

/-- The cue table takes one carry item: the entries after it and the events. -/
def takeCarryItem (L : Nat) (now : Instant) (own : Byte) (i : CarryItem) (entries : List CueEntry) :
    List CueEntry × List EventKind :=
  let held := findCue entries i.origin i.seq
  if instantDiff L i.due now ≤ 0 ∨ 0 < instantDiff L i.due (instantAddRounds now 4096) ∨
      (i.origin = own ∧ held = none) then (entries, [])
  else match held with
    | some e =>
      match e.state, i.kind with
      | .pending, .cue =>
        if i.sameContent e then (entries, []) else (entries, [.cueConflict i.origin i.seq])
      | .pending, .withdrawal =>
        if i.due = e.due then (updateCue entries i.origin i.seq CueEntry.withdraw, [])
        else (entries, [.cueConflict i.origin i.seq])
      | .withdrawn, _ => (entries, [])
      | .retired _, _ => (entries, [])
    | none =>
      match makeRoom L now i.due entries with
      | some (room, events) => (insertCue L i.toEntry room, events)
      | none => (entries, [.cueRefused i.origin i.seq])

/-! ## Firing reports (R120) -/

/-- The retire reason of a report's outcome. -/
def FiringOutcome.reason : FiringOutcome → RetireReason
  | .fired => .fired
  | .skipped => .skipped
  | .withdrawn => .withdrawn

/-- The cue table records the oldest firing report (R120, R146). -/
def State.recordReport (s : State) : State :=
  match s.firing.reports with
  | [] => s
  | r :: rest =>
    let s := s.updFiring fun u => { u with reports := rest }
    let s := s.updCues fun t =>
      { t with entries := updateCue t.entries r.origin r.seq fun e => { e with state := .retired r.outcome.reason } }
    match r.outcome with
    | .fired => s.queue (.cueFired r.origin r.seq r.lateness)
    | .skipped | .withdrawn => s

/-- Every held report is recorded, in order. -/
def State.recordReports (s : State) : State := State.recordReport^[s.firing.reports.length] s

/-! ## Alignment (R122, R123) -/

/-- An entry that an alignment has overtaken (R122). -/
def CueEntry.overtaken (L : Nat) (now : Instant) (e : CueEntry) : Bool :=
  e.active && decide (instantDiff L e.due now ≤ 0)

/-- An overtaken entry is retired: MISSED or WITHDRAWN (R122). -/
def CueEntry.overtake (L : Nat) (now : Instant) (e : CueEntry) : CueEntry :=
  if e.overtaken L now then
    { e with state := .retired (if e.state = .pending then .missed else .withdrawn) }
  else e

/-- The keep or clear rule: entries, CUE_MISSED events, whether cleared, and the count to report. -/
def keepOrClear (L : Nat) (now : Instant) (d : Int) (entries : List CueEntry) :
    List CueEntry × List EventKind × Bool × Nat :=
  if -2 ≤ d ∧ d ≤ 2 then
    (entries.map (CueEntry.overtake L now),
      (entries.filter fun e => e.overtaken L now && decide (e.state = .pending)).map
        fun e => .cueMissed e.origin e.seq,
      false, entries.length)
  else ([], [], true, entries.length)

/-! ## Sweep (R124) -/

/-- A RETIRED entry whose due round lies 3 or more rounds before the new round is removed. -/
def sweepCues (round : Round) (entries : List CueEntry) : List CueEntry :=
  entries.filter fun e => !(e.isRetired && roundsBack e.due.round round 3)

/-! ## Carry selection (R127 to R131) -/

/-- The forward limit (R128). -/
def CueEntry.forwardLimit (e : CueEntry) : Nat := if e.own then 4 else 2

/-- Eligible for a carry selection (R128). -/
def CueEntry.eligible (e : CueEntry) : Bool := e.active && decide (e.forward < e.forwardLimit)

/-- The item an entry is carried as (R130). -/
def CueEntry.toItem (e : CueEntry) : CarryItem :=
  { kind := if e.state = .withdrawn then .withdrawal else .cue
    line := e.line, action := e.action, origin := e.origin, seq := e.seq, due := e.due,
    width := e.width, mask := e.mask }

/-- The first `n` eligible entries in table order, as items, and the table with their forward counts
increased (R129, R131). -/
def selectCarry : Nat → List CueEntry → List CarryItem × List CueEntry
  | _, [] => ([], [])
  | 0, entries => ([], entries)
  | n + 1, e :: rest =>
    if e.eligible then
      let (items, after) := selectCarry n rest
      (e.toItem :: items, { e with forward := e.forward + 1 } :: after)
    else
      let (items, after) := selectCarry (n + 1) rest
      (items, e :: after)

end Sys2Proof.Machine
end

