-- ==== Sys2Proof/Machine/Flags.lean ====
section
/-! DEFINITION. The signals computed from State: HF requests, ATTN and the pins (log 22). -/

namespace Sys2Proof.Machine

/-! ## HF requests (R152) -/

/-- The line unit's request (R31). -/
def State.lineRequest (s : State) : Bool :=
  decide (s.line.tx ≠ .idle) || decide (s.line.rx ≠ .disarmed) || s.line.window.isSome

/-- The frame unit's request (R37). -/
def State.frameRequest (s : State) : Bool := !s.frame.waiting.isEmpty || !s.frame.items.isEmpty

/-- The cue table's request (R120, R126). -/
def State.cueRequest (s : State) : Bool := !s.firing.reports.isEmpty || !s.frame.items.isEmpty

/-- The host port's request (R161). -/
def State.portRequest (s : State) : Bool := s.port.selected || !s.port.taken.isEmpty

/-- Some HF request is raised. -/
def State.hfRequest (s : State) : Bool :=
  s.lineRequest || s.frameRequest || s.cueRequest || s.portRequest

/-! ## ATTN (R165) -/

/-- ATTN is active. -/
def State.attn (s : State) : Bool :=
  s.resetting.isNone && (!s.port.events.isEmpty || s.port.response.isSome)

/-- The level of pin ATTN, true is high: high while active (R176). -/
def State.attnPin (s : State) : Bool := s.attn

/-! ## Action lines (R138) -/

/-- PULSING and HELD lines are at their active level. -/
def LineState.active : LineState → Bool
  | .idle => false
  | .pulsing _ => true
  | .held => true

/-- The state of a line as the pin and the actions find it: IDLE from the start of the LF period in which its
count would reach 0 (R142, log 23). -/
def ActionLine.now (l : ActionLine) : LineState := if l.ending then .idle else l.state

/-- The level of pin ACT`n`: true is high. Every pin is low while a cold reset is in progress. -/
def State.actPin (s : State) (n : Fin 4) : Bool :=
  s.resetting.isNone && ((s.firing.lines[n]).now.active ^^ (s.firing.lines[n]).activeLow)

/-! ## IRTX and SDO (R17, R26, R27, R176) -/

/-- The transmitter emits a burst in the present half-cell; not in the closing silence, nor while the HF domain is
not AWAKE. -/
def State.emits (s : State) : Bool :=
  match s.resetting, s.power.state, s.line.tx with
  | none, .awake, .sending f halves _ => ((emissionHalves f.bytes)[halves]?).getD false
  | _, _, _ => false

/-- The current of a burst, in mA (R176). -/
def State.burstMilliamps (s : State) : Nat :=
  match s.port.config with
  | some c => if c.current = 1 then 100 else 50
  | none => 50

/-- The current IRTX sinks, in mA; 0 is high impedance (R176). -/
def State.irtxMilliamps (s : State) : Nat := if s.emits then s.burstMilliamps else 0

/-- SDO is driven: SELn is low and no cold reset is in progress (R159, R176). -/
def State.sdoDriven (s : State) : Bool := s.resetting.isNone && s.port.selected

end Sys2Proof.Machine
end

