-- ==== Sys2Proof/Machine/Firing.lean ====
section
/-! DEFINITION. The firing unit: line actions, the due watch and firing reports (chapter 9), and the commands
CUE_FALLS_DUE, PULSE_END and RECORD_FIRING_REPORT. -/

namespace Sys2Proof.Machine

/-! ## Line states (R141, R142) -/

/-- An action applied to a line state, with the entry's width (R141). -/
def applyAction (a : Action) (w : Nat) (l : LineState) : LineState :=
  match a, l with
  | .pulse, .idle => .pulsing w
  | .pulse, .pulsing r => .pulsing (max r w)
  | .pulse, .held => .held
  | .on, _ => .held
  | .off, _ => .idle
  | .toggle, .idle => .held
  | .toggle, .pulsing _ => .idle
  | .toggle, .held => .idle

/-- One line is changed. -/
def FiringUnit.updLine (u : FiringUnit) (n : Fin 4) (f : ActionLine → ActionLine) : FiringUnit :=
  { u with lines := u.lines.set n (f u.lines[n]) }

/-- Every line is changed. -/
def FiringUnit.mapLines (u : FiringUnit) (f : ActionLine → ActionLine) : FiringUnit :=
  { u with lines := Vector.ofFn fun n : Fin 4 => f u.lines[n] }

/-- A line at a new LF period: a pulse counts down; one whose count would reach 0 is marked, and is IDLE from then
on to the pin and to every action (R142, log 23). -/
def ActionLine.countDown (l : ActionLine) : ActionLine :=
  match l.state with
  | .pulsing r => if r ≤ 1 then { l with ending := true } else { l with state := .pulsing (r - 1) }
  | .idle | .held => l

/-- A marked pulse ends: the line becomes IDLE (R142). -/
def ActionLine.endPulse (l : ActionLine) : ActionLine :=
  if l.ending then { l with state := .idle, ending := false } else l

/-- An IDLE line of the same polarity (R147). -/
def ActionLine.toIdle (l : ActionLine) : ActionLine := { l with state := .idle, ending := false }

/-- Every pulse that ends in this LF period ends (R142). -/
def State.endPulses (s : State) : State := s.updFiring fun u => u.mapLines ActionLine.endPulse

/-! ## The power controller's answer to a request in DOZE (R154) -/

/-- In DOZE a cause starts the oscillator and is named; otherwise nothing changes. -/
def State.wakeFor (cause : WakeCause) (s : State) : State :=
  if s.power.state = .doze then
    s.updPower fun p => { p with state := .starting, wake := none, lastCause := cause, startAge := 0 }
  else s

/-! ## The due watch (R119, R139) -/

/-- The active entries that have no report in the list, in table order. -/
def State.watched (s : State) : List CueEntry :=
  s.cues.entries.filter fun e =>
    e.active && !(s.firing.reports.any fun r => decide (r.origin = e.origin ∧ r.seq = e.seq))

/-- Group test (R140). -/
def State.inGroup (s : State) (mask : Byte) : Bool :=
  match s.port.config with
  | some c => decide (c.mask &&& mask ≠ 0)
  | none => false

/-- The firing unit deals with one entry: line action and report (R140); a report appended in DOZE wakes the
station (R156). -/
def State.dealWith (e : CueEntry) (lateness : Nat) (s : State) : State :=
  let fires := decide (e.state = .pending) && s.inGroup e.mask
  let outcome : FiringOutcome :=
    if e.state = .withdrawn then .withdrawn else if fires then .fired else .skipped
  let s := s.updFiring fun u =>
    let u := if fires then
        u.updLine e.line fun l => { l with state := applyAction e.action e.width.toNat l.state }
      else u
    { u with reports := u.reports ++
        [{ origin := e.origin, seq := e.seq, outcome := outcome, lateness := lateness }] }
  s.wakeFor .firing

/-- The entries at the watched instant, when the clock has reached it by counting (R139). -/
def State.dueNow (s : State) : List CueEntry :=
  match s.watched with
  | [] => []
  | e :: rest =>
    if s.timer.counted ∧ e.due = s.timer.clock then
      (e :: rest).filter fun x => decide (x.due = s.timer.clock)
    else []

/-- Every entry at the watched instant is dealt with in table order, after the pulses that end in this LF
period (R140, R142). -/
def State.fallDue (s : State) : State :=
  if s.Running then
    match s.dueNow with
    | [] => s
    | e :: rest => (e :: rest).foldl (fun s x => s.dealWith x 0) s.endPulses
  else s

/-- What the clock has reached falls due and every held report is recorded: what a command that reads the cue table,
an item, a sweep, a selection or a clearing finds (R120, R127, R147). -/
def State.settleCues (s : State) : State := s.fallDue.recordReports

/-- The entries in the span a forward correction has passed over are dealt with at the move (R144). -/
def State.fireSkipped (before after : Instant) (s : State) : State :=
  (s.watched.filter fun e =>
      decide (0 < instantDiff s.L e.due before ∧ instantDiff s.L e.due after ≤ 0)).foldl
    (fun s e => s.dealWith e (instantDiff s.L after e.due).toNat) s

/-! ## The commands -/

/-- CUE_FALLS_DUE (R139, R140, R141, R143). -/
def execCueFallsDue (s : State) : Host.Outcome State Fault Refusal := .next s.fallDue

/-- PULSE_END (R142): a pulse whose count would reach 0 ends. -/
def execPulseEnd (n : Fin 4) (s : State) : Host.Outcome State Fault Refusal :=
  .next (s.updFiring fun u => u.updLine n ActionLine.endPulse)

/-- RECORD_FIRING_REPORT (R120, R146): while AWAKE. -/
def execRecordFiringReport (s : State) : Host.Outcome State Fault Refusal :=
  .next (if s.Awake then s.recordReport else s)

end Sys2Proof.Machine
end

