-- ==== Sys2Proof/Machine/Layout.lean ====
section
/-! DEFINITION. The byte layouts of response, status, cue, peer, slot and event records (R175). -/

namespace Sys2Proof.Machine

def StationState.code : StationState → Byte
  | .unconfigured => 0
  | .ready => 1
  | .survey => 2
  | .claiming => 3
  | .tentative => 4
  | .settled => 5
  | .backoff => 6
  | .leaving => 7

def SlotOutcome.code : SlotOutcome → Byte
  | .unheard => 0
  | .clean => 1
  | .garbled => 2
  | .silent => 3

def PeerState.code : PeerState → Byte
  | .claimant => 0
  | .tentative => 1
  | .settled => 2
  | .leaving => 3

def WakeCause.code : WakeCause → Byte
  | .none => 0
  | .plan => 1
  | .host => 2
  | .firing => 3

def ResultCode.code : ResultCode → Byte
  | .ok => 0x00
  | .none => 0x01
  | .wrongState => 0x02
  | .badArg => 0x03
  | .tooSoon => 0x04
  | .tooFar => 0x05
  | .quota => 0x06
  | .full => 0x07
  | .conflict => 0x08
  | .tooLate => 0x09
  | .notFound => 0x0A
  | .empty => 0x0B
  | .locked => 0x0C
  | .unknownCommand => 0x0D
  | .malformed => 0x0E

/-- Cue state in bits 7–4 and retire reason in bits 3–0. -/
def CueState.code : CueState → Byte
  | .pending => 0x10
  | .withdrawn => 0x20
  | .retired .fired => 0x31
  | .retired .skipped => 0x32
  | .retired .withdrawn => 0x33
  | .retired .missed => 0x34

/-- A count in one byte. -/
def byteOf (n : Nat) : Byte := BitVec.ofNat 8 n

/-- A slot number; 0 when absent. -/
def slotByte (k : Option Slot) : Byte :=
  match k with
  | some k => byteOf k.val
  | none => 0

/-- A signed value in two's complement. -/
def signedByte (n : Int) : Byte := BitVec.ofInt 8 n

/-- Round number (3) and phase (3). -/
def instantBytes (i : Instant) : List Byte := bytes24 i.round ++ bytes24 (BitVec.ofNat 24 i.phase)

/-- The six parameters of CONFIGURE; six zeros before CONFIGURE. -/
def configBytes (c : Option ConfigRecord) : List Byte :=
  match c with
  | some c => [c.id, c.lengthCode, c.mask, c.polarities, c.doze, c.current]
  | none => [0, 0, 0, 0, 0, 0]

/-- Status record, 23 bytes. The flags byte has the dozed flag in bit 0; its other bits are sent as 0 (log 35). -/
def StatusRecord.bytes (r : StatusRecord) : List Byte :=
  r.station.code :: (instantBytes r.clock ++
    [slotByte r.ownSlot, byteOf r.tag.members, r.tag.lowest, signedByte r.lastCorrection, byteOf r.cues,
     byteOf r.ownCount, r.nextSeq, byteOf r.events, r.lastCause.code, if r.dozed then 1 else 0] ++
    configBytes r.config)

/-- Cue entry, 14 bytes. -/
def CueEntry.bytes (e : CueEntry) : List Byte :=
  e.origin :: e.seq :: (instantBytes e.due ++
    [itemHead 0 e.line e.action, e.width, e.mask, e.state.code, byteOf e.forward, if e.own then 1 else 0])

/-- Peer entry, 10 bytes; an absent offset is 0x80. -/
def PeerEntry.bytes (e : PeerEntry) : List Byte :=
  e.id :: slotByte e.slot :: e.state.code :: (bytes24 e.heard ++ byteOf e.missed ::
    match e.report with
    | some r => [signedByte r.offset, r.members, r.lowest]
    | none => [0x80, 0, 0])

/-- Kind, holder id and claim round of a slot entry. -/
def SlotKind.bytes : SlotKind → List Byte
  | .openSlot => [0, 0, 0, 0, 0]
  | .vacant => [1, 0, 0, 0, 0]
  | .claimed h r => 2 :: h :: bytes24 r
  | .occupied h => [3, h, 0, 0, 0]
  | .own => [4, 0, 0, 0, 0]

/-- Slot entry, 9 bytes. -/
def SlotEntry.bytes (e : SlotEntry) : List Byte :=
  e.kind.bytes ++ e.outcome.code :: bytes24 e.outcomeRound

/-- The kind's code and its argument bytes. -/
def EventKind.bytes : EventKind → Byte × List Byte
  | .resetDone .powerOn => (0x01, [0])
  | .resetDone .resetLine => (0x01, [1])
  | .restarted => (0x02, [])
  | .aligned r cleared n => (0x03, bytes24 r ++ [if cleared then 1 else 0, byteOf n])
  | .founded => (0x04, [])
  | .joined k => (0x05, [byteOf k.val])
  | .strike k none => (0x06, [byteOf k.val, 0, 0])
  | .strike k (some id) => (0x06, [byteOf k.val, 1, id])
  | .yielded k => (0x07, [byteOf k.val])
  | .cellFull => (0x08, [])
  | .left => (0x09, [])
  | .cellMoved m l => (0x0A, [m, l])
  | .peerNew id k => (0x0B, [id, slotByte k])
  | .peerLost id k .silent => (0x0C, [id, slotByte k, 0])
  | .peerLost id k .left => (0x0C, [id, slotByte k, 1])
  | .cueFired o n late => (0x0D, [o, n, byteOf late])
  | .cueMissed o n => (0x0E, [o, n])
  | .cueRefused o n => (0x0F, [o, n])
  | .cueEvicted o n => (0x10, [o, n])
  | .cueConflict o n => (0x11, [o, n])
  | .overflow n => (0x12, [byteOf n])

/-- Event record, 12 bytes: unused argument bytes are 0. -/
def EventRecord.bytes (e : EventRecord) : List Byte :=
  e.kind.bytes.1 :: (instantBytes e.clock ++ (e.kind.bytes.2 ++ [0, 0, 0, 0, 0]).take 5)

/-- The payload's bytes. -/
def Payload.bytes : Payload → List Byte
  | .none => []
  | .seq n => [n]
  | .status r => r.bytes
  | .cue e => e.bytes
  | .peer e => e.bytes
  | .slots t => t.toList.flatMap SlotEntry.bytes
  | .event e => e.bytes

/-- Response record: result, command code, flags, payload length (2), payload. -/
def Response.bytes (r : Response) : List Byte :=
  r.result.code :: r.code :: (if r.lost then 1 else 0) ::
    (bytes16 (BitVec.ofNat 16 r.payload.bytes.length) ++ r.payload.bytes)

/-- The response NONE (R164). -/
def Response.noAnswer : Response := { result := .none, code := 0, lost := false, payload := .none }

end Sys2Proof.Machine
end

