-- ==== Sys2Proof/Machine/Port.lean ====
section
/-! DEFINITION. The host port: SELN_ASSERTED, COMMAND_TAKEN, FETCH, UNKNOWN_COMMAND and MALFORMED (R159 to
R165). -/

namespace Sys2Proof.Machine

/-! ## Transactions (R155, R159, R161, R164) -/

/-- SELn is asserted: the port's HF request is raised, and a dozing station wakes for HOST (R154, R155). -/
def State.assertSelect (s : State) : State :=
  (s.updPort fun p => { p with selected := true }).wakeFor .host

/-- A record is taken while the list holds fewer than 4; otherwise the lost mark is set (R161). -/
def HostPort.take (p : HostPort) (r : TakenRecord) : HostPort :=
  if p.taken.length < 4 then { p with taken := p.taken ++ [r] } else { p with lost := true }

/-- The next bits on SDO: those of a record, then filler, whose bits are 0 (R159, R164). -/
def shiftOut (record : List Bool) (clocked : Nat) : List Bool :=
  (record ++ List.replicate (clocked - record.length) false).take clocked

/-- SELn is released while a FETCH is in progress: the rest of the record that has not been shifted out is lost
(R164). -/
def HostPort.endFetch (p : HostPort) : HostPort := { p with selected := false, fetching := none }

/-- The opening byte of a FETCH ends: the response buffer's content, or NONE, is taken to be shifted out, each byte
most significant bit first, and the buffer is emptied; some bits are clocked after it, and SELn is released or stays
asserted (R159, R164). -/
def HostPort.fetch (p : HostPort) (clocked : Nat) (released : Bool) : HostPort :=
  let record := (p.response.getD Response.noAnswer).bytes.flatMap byteBits
  let p := { p with response := none, sdo := shiftOut record clocked, fetching := some (record.drop clocked) }
  if released then p.endFetch else p

/-- SELn is released after some bits on SDI. A FETCH in progress shifts out as many bits more and ends. Else a
transaction is a FETCH by its opening byte, or a COMMAND whose record is judged and taken, with filler on SDO from its
first bit to its last; no whole byte, no effect (R159 to R161, R164). -/
def HostPort.release (p : HostPort) (sdi : List Bool) : HostPort :=
  match p.fetching, wholeBytes sdi with
  | some record, _ => { p with sdo := p.sdo ++ shiftOut record sdi.length }.endFetch
  | none, [] => { p with selected := false, sdo := [] }
  | none, code :: rest =>
    if code = fetchCode then p.fetch (sdi.length - 8) true
    else ({ p with selected := false, sdo := List.replicate sdi.length false }).take (judgeRecord code rest)

/-- A transaction that has not been seen to begin begins now (log 15). -/
def State.inSelect (s : State) : State := if s.port.selected then s else s.assertSelect

/-! ## Execution (R162) -/

/-- While AWAKE, the oldest taken record, which is passed for execution, and the records behind it. -/
def State.oldestTaken (s : State) : Option (TakenRecord × List TakenRecord) :=
  if s.Awake then
    match s.port.taken with
    | [] => none
    | r :: rest => some (r, rest)
  else none

/-- The owner's work is done: the response is written, and the record leaves the taken list. -/
def answer (code : Byte) (rest : List TakenRecord) (done : State × ResultCode × Payload) : State :=
  done.1.updPort fun p => { p.respond done.2.1 code done.2.2 with taken := rest }

/-! ## The commands -/

/-- SELN_ASSERTED (R154, R155, R159). While a cold reset is in progress the port disregards SELn. -/
def execSelnAsserted (s : State) : Host.Outcome State Fault Refusal :=
  .next (if s.Running then s.assertSelect else s)

/-- COMMAND_TAKEN (R159 to R161). -/
def execCommandTaken (sdi : List Bool) (s : State) : Host.Outcome State Fault Refusal :=
  .next (if s.Running then s.inSelect.updPort fun p => p.release sdi else s)

/-- FETCH (R164); none begins while another is in progress. -/
def execFetch (part : FetchPart) (s : State) : Host.Outcome State Fault Refusal :=
  .next (if s.Running ∧ s.port.fetching = none
    then s.inSelect.updPort fun p => p.fetch part.clocked part.released else s)

/-- UNKNOWN_COMMAND (R160, R162, R163): held firing reports are recorded, and nothing else is done. -/
def execUnknownCommand (s : State) : Host.Outcome State Fault Refusal :=
  .next (match s.oldestTaken with
    | some (.unknown code, rest) => answer code rest (s.recordReports, .unknownCommand, .none)
    | _ => s)

/-- MALFORMED (R160, R162, R163): held firing reports are recorded, and nothing else is done. -/
def execMalformed (s : State) : Host.Outcome State Fault Refusal :=
  .next (match s.oldestTaken with
    | some (.malformed code, rest) => answer code rest (s.recordReports, .malformed, .none)
    | _ => s)

end Sys2Proof.Machine
end

