-- ==== Sys2Proof/Machine/Stations.lean ====
section
/-! DEFINITION. What several blocks do together: entry into READY, corrections, alignments and cell moves. -/

namespace Sys2Proof.Machine

/-! ## Entry into READY (R33, R50, R69, R91, R97, R125, R147) -/

/-- The station enters READY: what the clock has reached falls due and held reports are recorded first (R147), then
line and frame unit are cut off, the tables reset, the items discarded, the samples and the cue table emptied and
the action lines go IDLE. -/
def State.enterReady (s : State) : State :=
  let s := s.settleCues
  let s := (s.updLine LineUnit.cutOff).updFrame fun _ => FrameUnit.reset
  let s := (s.updMember fun m => { m.clearItems with station := .ready, candidate := none }).resetTables
  let s := (s.updSync fun _ => SyncUnit.reset).updCues fun t => { t with entries := [] }
  (s.updFiring fun u => u.mapLines ActionLine.toIdle).updPower fun p => { p with wake := none }

/-- Leave completion, and a cell move taken in LEAVING: READY and LEFT (R90, R104). -/
def State.completeLeave (s : State) : State := s.enterReady.queue .left

/-! ## Clock moves (R12 to R15, R30) -/

/-- The arrival instant of a reception in progress is moved with the clock (R30). -/
def State.moveArrival (n : Int) (s : State) : State :=
  match s.line.rx with
  | .receiving r =>
    s.updLine fun l => { l with rx := .receiving { r with arrival := instantAdd s.L r.arrival n } }
  | .disarmed | .armed _ | .echo => s

/-- The round timer takes a correction in the seam period, and the move notice reaches line unit and firing
unit (R12, R13, R30, R144). A correction of 0 is no move. -/
def State.correct (c : Int) (s : State) : State :=
  if c = 0 then s
  else
    let before := s.timer.clock
    let after : Instant := { before with phase := ((before.phase : Int) + c).toNat }
    ((s.updTimer fun t => { t with clock := after, counted := false }).moveArrival c).fireSkipped before after

/-! ## The sync unit at the seam point (R94 to R96) -/

/-- One largest and one smallest of four or more offsets are set aside (R95). -/
def trimmed (offsets : List Int) : List Int :=
  match offsets with
  | [] => []
  | a :: rest =>
    if offsets.length < 4 then offsets
    else (offsets.erase (rest.foldl max a)).erase (rest.foldl min a)

/-- The correction of a list of offsets (R95). -/
def correctionOf (offsets : List Int) : Int :=
  let used := trimmed offsets
  let m := used.sum.tdiv used.length
  max (-8) (min 8 (-m))

/-- The sync unit acts on the seam point of the present round. -/
def State.syncSeam (s : State) : State :=
  let r := s.timer.clock.round
  let used := if s.sync.listRound = some r then s.sync.samples.map Sample.offset else []
  let s' := s.updSync fun u => { u with samples := [], listRound := none, closedRound := some r }
  if s.member.station.inCell then
    let c := correctionOf used
    (s'.updSync fun u => { u with lastCorrection := c }).correct c
  else s'

/-! ## The cell-move decision (R99 to R104) -/

/-- The round lead of an offset (R99). -/
def roundLead (L : Nat) (offset : Int) : Int := offset.tdiv L

/-- Candidate `a` ranks above candidate `b` (R100). -/
def Candidate.above (a b : Candidate) : Bool :=
  if a.members ≠ b.members then decide (b.members.toNat < a.members.toNat)
  else if a.lowest ≠ b.lowest then decide (a.lowest.toNat < b.lowest.toNat)
  else if a.lead ≠ b.lead then decide (b.lead < a.lead)
  else decide (a.sender.toNat < b.sender.toNat)

/-- A new candidate is kept if none is held or it ranks above the one held (R100). -/
def keepCandidate (held : Option Candidate) (new : Candidate) : Candidate :=
  match held with
  | none => new
  | some h => if new.above h then new else h

/-- The decision: move to the candidate's cell (R101). -/
def movesTo (own : CellTag) (ownId : Byte) (c : Candidate) : Bool :=
  if c.members.toNat ≠ own.members then decide (own.members < c.members.toNat)
  else if c.lowest ≠ own.lowest then decide (c.lowest.toNat < own.lowest.toNat)
  else if c.lead ≠ 0 then decide (0 < c.lead)
  else decide (c.sender.toNat < ownId.toNat)

/-- A move to SURVEY (R89, R102, R103, R33, R97). -/
def State.moveToSurvey (c : Candidate) (s : State) : State :=
  let s := (s.updMember fun m =>
    { m.clearItems with station := .survey, surveyEntry := some s.timer.clock, candidate := none }).resetTables
  let s := s.updSync fun u => { u with samples := [], listRound := none }
  let s := (s.updLine fun l => { l with window := none }).rearm
  (s.updPower fun p => { p with wake := none }).queue (.cellMoved c.members c.lowest)

/-- The tests of a seam point that follow a decision to stay (R84, R85). -/
def State.holdTests (s : State) : State :=
  match s.member.station with
  | .tentative =>
    if s.member.ownOutcome = some .sent ∧ s.member.strikeNow = false then
      if s.member.cleanRounds = 0 then s.updMember fun m => { m with cleanRounds := 1 }
      else
        let s' := s.updMember fun m =>
          { m with station := .settled, cleanRounds := 0, claimRound := none }
        match s.member.ownSlot with
        | some k => s'.queue (.joined k)
        | none => s'
    else s
  | .settled => if s.member.strikeNow ∧ s.member.strikeBefore then s.yieldSlot else s
  | .unconfigured | .ready | .survey | .claiming | .backoff | .leaving => s

/-- The membership controller acts on the seam point: the decision, then the tests (R89, R101). -/
def State.memberSeam (s : State) : State :=
  if s.member.station.inCell then
    match s.member.candidate with
    | some c =>
      if movesTo s.tag s.ownId c then
        if s.member.station = .leaving then s.completeLeave else s.moveToSurvey c
      else (s.updMember fun m => { m with candidate := none }).holdTests
    | none => s.holdTests
  else s

end Sys2Proof.Machine
end

