-- ==== Sys2Proof/Machine/Commands.lean ====
section
/-! DEFINITION. The eleven host commands (chapters 5, 7 and 11). -/

namespace Sys2Proof.Machine

/-! ## CONFIGURE (R2, R68, R71, R138, R150, R166) -/

/-- The record's values are in range (R166). -/
def ConfigRecord.accepted (c : ConfigRecord) : Bool :=
  decide (c.id ≠ 0 ∧ c.id ≠ 255 ∧ c.lengthCode.toNat < 4 ∧ c.current.toNat < 2)

/-- The record is stored, the lock set, and everything it configures takes effect. The timer's announcement due is kept,
and a seam point of the old grid that is not announced yet is dropped where L changes (log 36). -/
def State.configure (c : ConfigRecord) (s : State) : State :=
  let s := s.updPort fun p => { p with config := some c, locked := true }
  let s := s.updMember fun m =>
    { m with station := .ready, lfsr := lfsrSeed c.id s.timer.clock.phase }
  let s := s.updTimer fun t =>
    { t with lengthCode := ⟨c.lengthCode.toNat % 4, Nat.mod_lt _ (by decide)⟩ }
  s.updFiring fun u =>
    { u with lines := Vector.ofFn fun n : Fin 4 => { u.lines[n] with activeLow := c.polarities.getLsbD n.val } }

/-- CONFIGURE: LOCKED, BAD_ARG or OK. -/
def runConfigure (c : ConfigRecord) (s : State) : State × ResultCode × Payload :=
  if s.port.locked then (s, .locked, .none)
  else if c.accepted then (s.configure c, .ok, .none)
  else (s, .badArg, .none)

/-! ## START, LEAVE, RESTART (R71, R88, R91, R167) -/

/-- The station enters SURVEY and arms its receiver continuously. -/
def State.startSurvey (s : State) : State :=
  (s.updMember fun m =>
    { m.clearItems with station := .survey, surveyEntry := some s.timer.clock }).rearm

/-- START is taken in READY. -/
def runStart (s : State) : State × ResultCode × Payload :=
  if s.member.station = .ready then (s.startSurvey, .ok, .none) else (s, .wrongState, .none)

/-- LEAVE by the state it is taken in. -/
def runLeave (s : State) : State × ResultCode × Payload :=
  match s.member.station with
  | .survey | .claiming | .backoff => (s.completeLeave, .ok, .none)
  | .tentative | .settled =>
    (s.updMember fun m => { m.clearItems with station := .leaving, ownSlot := m.ownSlot }, .ok, .none)
  | .unconfigured | .ready | .leaving => (s, .wrongState, .none)

/-- RESTART is taken in every state but UNCONFIGURED. -/
def runRestart (s : State) : State × ResultCode × Payload :=
  if s.member.station = .unconfigured then (s, .wrongState, .none)
  else (s.enterReady.queue .restarted, .ok, .none)

/-! ## POST, WITHDRAW (R110 to R112) -/

/-- POST is taken in SETTLED. -/
def runPost (p : PostParams) (s : State) : State × ResultCode × Payload :=
  if s.member.station = .settled then
    let (cues, events, result, payload) := postCue s.L s.timer.clock s.ownId p s.cues
    ((s.updCues fun _ => cues).queueAll events, result, payload)
  else (s, .wrongState, .none)

/-- WITHDRAW is taken in every state but UNCONFIGURED and READY. -/
def runWithdraw (seq : Byte) (s : State) : State × ResultCode × Payload :=
  match s.member.station with
  | .unconfigured | .ready => (s, .wrongState, .none)
  | .survey | .claiming | .tentative | .settled | .backoff | .leaving =>
    let (entries, result) := withdrawCue s.ownId seq s.cues.entries
    (s.updCues fun t => { t with entries := entries }, result, .none)

/-! ## The reads (R168 to R170) -/

/-- The status record, read now (R168). -/
def State.status (s : State) : StatusRecord :=
  { station := s.member.station, clock := s.timer.clock, ownSlot := s.member.ownSlot, tag := s.tag,
    lastCorrection := s.sync.lastCorrection, cues := s.cues.entries.length,
    ownCount := ownCount s.cues.entries, nextSeq := s.cues.nextSeq, events := s.port.events.length,
    lastCause := s.power.lastCause, dozed := s.power.dozed, config := s.port.config }

/-- READ_STATUS clears the dozed flag (R157, R168). -/
def runReadStatus (s : State) : State × ResultCode × Payload :=
  (s.updPower fun p => { p with dozed := false }, .ok, .status s.status)

/-- READ_CUE: the entry at the index, EMPTY, or BAD_ARG above 23 (R169). -/
def runReadCue (index : Byte) (s : State) : State × ResultCode × Payload :=
  if 23 < index.toNat then (s, .badArg, .none)
  else match s.cues.entries[index.toNat]? with
    | some e => (s, .ok, .cue e)
    | none => (s, .empty, .none)

/-- READ_PEER: the entry at the index, EMPTY, or BAD_ARG above 27 (R169). -/
def runReadPeer (index : Byte) (s : State) : State × ResultCode × Payload :=
  if 27 < index.toNat then (s, .badArg, .none)
  else match s.member.peers[index.toNat]? with
    | some e => (s, .ok, .peer e)
    | none => (s, .empty, .none)

/-- READ_SLOTS: all 32 entries (R169). -/
def runReadSlots (s : State) : State × ResultCode × Payload := (s, .ok, .slots s.member.slots)

/-- TAKE_EVENT: the oldest record, or EMPTY (R170). -/
def runTakeEvent (s : State) : State × ResultCode × Payload :=
  match s.port.events with
  | [] => (s, .empty, .none)
  | e :: rest => (s.updPort fun p => { p with events := rest }, .ok, .event e)

/-! ## The commands: the oldest taken record executes, after every held firing report has been recorded, and, where
the command reads the cue table, after what has fallen due is settled (R120, R162). A WITHDRAW in the LF period in
which its entry falls due may come before or after CUE_FALLS_DUE (R112, R140) -/

/-- CONFIGURE executes. -/
def execConfigure (s : State) : Host.Outcome State Fault Refusal :=
  .next (match s.oldestTaken with
    | some (.command (.configure r), rest) =>
      answer (HostCommand.configure r).code rest (runConfigure r s.recordReports)
    | _ => s)

/-- START executes. -/
def execStart (s : State) : Host.Outcome State Fault Refusal :=
  .next (match s.oldestTaken with
    | some (.command .start, rest) =>
      answer HostCommand.start.code rest (runStart s.recordReports)
    | _ => s)

/-- LEAVE executes. -/
def execLeave (s : State) : Host.Outcome State Fault Refusal :=
  .next (match s.oldestTaken with
    | some (.command .leave, rest) =>
      answer HostCommand.leave.code rest (runLeave s.recordReports)
    | _ => s)

/-- RESTART executes. -/
def execRestart (s : State) : Host.Outcome State Fault Refusal :=
  .next (match s.oldestTaken with
    | some (.command .restart, rest) =>
      answer HostCommand.restart.code rest (runRestart s.recordReports)
    | _ => s)

/-- POST executes. -/
def execPost (s : State) : Host.Outcome State Fault Refusal :=
  .next (match s.oldestTaken with
    | some (.command (.post p), rest) =>
      answer (HostCommand.post p).code rest (runPost p s.settleCues)
    | _ => s)

/-- WITHDRAW executes. -/
def execWithdraw (s : State) : Host.Outcome State Fault Refusal :=
  .next (match s.oldestTaken with
    | some (.command (.withdraw n), rest) =>
      answer (HostCommand.withdraw n).code rest (runWithdraw n s.recordReports)
    | _ => s)

/-- READ_STATUS executes. -/
def execReadStatus (s : State) : Host.Outcome State Fault Refusal :=
  .next (match s.oldestTaken with
    | some (.command .readStatus, rest) =>
      answer HostCommand.readStatus.code rest (runReadStatus s.settleCues)
    | _ => s)

/-- READ_CUE executes. -/
def execReadCue (s : State) : Host.Outcome State Fault Refusal :=
  .next (match s.oldestTaken with
    | some (.command (.readCue i), rest) =>
      answer (HostCommand.readCue i).code rest (runReadCue i s.settleCues)
    | _ => s)

/-- READ_PEER executes. -/
def execReadPeer (s : State) : Host.Outcome State Fault Refusal :=
  .next (match s.oldestTaken with
    | some (.command (.readPeer i), rest) =>
      answer (HostCommand.readPeer i).code rest (runReadPeer i s.recordReports)
    | _ => s)

/-- READ_SLOTS executes. -/
def execReadSlots (s : State) : Host.Outcome State Fault Refusal :=
  .next (match s.oldestTaken with
    | some (.command .readSlots, rest) =>
      answer HostCommand.readSlots.code rest (runReadSlots s.recordReports)
    | _ => s)

/-- TAKE_EVENT executes. -/
def execTakeEvent (s : State) : Host.Outcome State Fault Refusal :=
  .next (match s.oldestTaken with
    | some (.command .takeEvent, rest) =>
      answer HostCommand.takeEvent.code rest (runTakeEvent s.recordReports)
    | _ => s)

end Sys2Proof.Machine
end

