-- ==== Sys2Proof/Machine/Line.lean ====
section
/-! DEFINITION. The line unit's commands: LISTEN_WINDOW_OPEN, WINDOW_CLOSE, MARKER_RECOGNISED, RECEPTION_END,
TRANSMIT_START, COLLIDED and SENT (chapter 2), with what the membership controller makes of each report. -/

namespace Sys2Proof.Machine

/-! ## Listen windows (R19, R20, R24) -/

/-- The window of slot `k` opens: the receiver goes to ARMED unless it is RECEIVING or in ECHO. -/
def State.openWindow (k : Slot) (s : State) : State :=
  (s.updLine fun l => { l with
    window := some { slot := k, round := windowRound s.timer.lengthCode s.timer.clock k,
                     marker := false, transmitted := false } }).rearm

/-- The planned slot whose opening phase the clock has reached by counting, if its window is not open. -/
def State.windowDue (s : State) : Option Slot :=
  if s.member.station.inCell ∧ s.timer.counted ∧ s.line.window = none then
    (List.finRange 32).find? fun k =>
      decide (windowOpenPhase s.timer.lengthCode k = s.timer.clock.phase) &&
        s.member.planned k (windowRound s.timer.lengthCode s.timer.clock k)
  else none

/-- The window that is due opens (R20). -/
def State.openDueWindow (s : State) : State :=
  if s.Awake then
    match s.windowDue with
    | some k => s.openWindow k
    | none => s
  else s

/-- The window report NO_MARKER: SILENT is recorded, and the LEAVING peers of the slot are removed, in ascending order
of id (R53, R64, log 32). -/
def State.reportSilent (k : Slot) (round : Round) (s : State) : State :=
  let s := s.updMember fun m => m.record k .silent round
  (s.member.peers.filter fun p => decide (p.state = .leaving ∧ p.slot = some k)).foldl
    (fun s p => s.losePeer p .left) s

/-- The open window closes at its close phase; ARMED goes to DISARMED; the report is given (R20, R24, R53). With no
marker recognised in the window the report is NO_MARKER, also while an earlier reception goes on (log 30). -/
def State.closeWindow (s : State) : State :=
  match s.line.window with
  | some w =>
    if s.Awake ∧ s.timer.counted ∧ s.timer.clock.phase = windowClosePhase s.timer.lengthCode w.slot then
      let s := (s.updLine fun l => { l with window := none }).rearm
      if w.marker ∨ w.transmitted then s else s.reportSilent w.slot w.round
    else s
  | none => s

/-! ## Receptions (R21, R23) -/

/-- A candidate marker of an ARMED receiver has completed: a reception begins (R21). -/
def State.recognise (s : State) : State :=
  let slot := match s.line.window with
    | some w => w.slot
    | none => slotOfPhase s.timer.lengthCode s.timer.clock.phase
  s.updLine fun l => { l with
    rx := .receiving { arrival := s.timer.clock, slot := slot, bytes := [], part := [], silentHeld := false,
                       damaged := false, first := none, half := HalfCell.start }
    window := l.window.map fun w => { w with marker := true } }

/-- The reception in progress has ended and is handed to the frame unit (R23). -/
def State.endReception (s : State) : State :=
  match s.line.rx with
  | .receiving r => (s.handReception r (if r.damaged then .damaged else .complete)).freeRx
  | .disarmed | .armed _ | .echo => s

/-! ## Starting to send (R25, R28, R29) -/

/-- The frame unit's sending side returns to IDLE when an outcome is reported (R37). -/
def State.clearHanded (s : State) : State := s.updFrame fun u => { u with sending := none }

/-- Emission begins: SENDING and ECHO (R25, R24). -/
def State.beginSending (f : OutFrame) (s : State) : State :=
  s.updLine fun l => { l with tx := .sending f 0 HalfCell.start, rx := .echo,
                              window := l.window.map fun w => { w with transmitted := true } }

/-- A claim is deferred: discarded, the try count and the target kept (R28, R79). -/
def State.deferClaim (s : State) : State :=
  ((s.updLine fun l => { l with tx := .idle }).clearHanded).updMember fun m => { m with claim := none }

/-- Carrier sense: the receiver is RECEIVING or the history shows a burst (R28). -/
def LineUnit.busy (l : LineUnit) : Bool :=
  l.history.any id || match l.rx with
    | .receiving _ => true
    | .disarmed | .armed _ | .echo => false

/-- A reception in progress is abandoned at the own beacon's start (R29). -/
def State.abandon (s : State) : State :=
  match s.line.rx with
  | .receiving r => s.handReception r .abandoned
  | .disarmed | .armed _ | .echo => s

/-- The clock has reached a pending frame's start instant (R25, R28, R29). -/
def State.startTransmission (s : State) : State :=
  match s.line.tx with
  | .pending f =>
    if s.Awake ∧ s.timer.clock = f.start then
      match f.kind with
      | .beacon => s.abandon.beginSending f
      | .claim => if s.line.busy then s.deferClaim else s.beginSending f
    else s
  | .idle | .sending _ _ _ => s

/-! ## Transmission outcomes (R26, R27, R53, R79, R80, R82, R90) -/

/-- The target's entry is OCCUPIED, or CLAIMED with a lower id than this station's (R77, R79, R80). -/
def targetLost (own : Byte) : SlotKind → Bool
  | .occupied _ => true
  | .claimed h _ => decide (h.toNat < own.toNat)
  | .openSlot | .vacant | .own => false

/-- A LEAVING beacon has been reported: the second completes the leave (R90). -/
def State.countLeaving (s : State) : State :=
  if s.member.leavingBeacons = 0 then s.updMember fun m => { m with leavingBeacons := 1 }
  else s.completeLeave

/-- The station takes the own slot and enters TENTATIVE (R51, R80). -/
def State.takeOwnSlot (k : Slot) (round : Round) (s : State) : State :=
  s.updMember fun m =>
    { (m.setKind k .own).clearItems with
      station := .tentative, ownSlot := some k, claimRound := some round }

/-- A claim reported SENT has won or lost (R80). -/
def State.claimSent (f : OutFrame) (s : State) : State :=
  match s.member.station, s.member.claim with
  | .claiming, some c =>
    let s := s.updMember fun m => { m with claim := none }
    if targetLost s.ownId (s.member.kind c.target) then s.redrawTarget
    else s.takeOwnSlot c.target f.start.round
  | _, _ => s

/-- A claim reported COLLIDED is a failed try (R79). -/
def State.claimCollided (s : State) : State :=
  match s.member.station, s.member.target with
  | .claiming, some t =>
    let s := s.updMember fun m => { m with claim := none, tries := m.tries + 1 }
    if 4 ≤ s.member.tries then s.drawBackoff
    else if targetLost s.ownId (s.member.kind t) then s.redrawTarget
    else s
  | _, _ => s

/-- The own beacon's outcome is noted, where the station holds its slot (R70). -/
def State.noteOwnOutcome (k : Slot) (o : TxOutcome) (s : State) : State :=
  if (s.member.station = .tentative ∨ s.member.station = .settled) ∧ s.member.ownSlot = some k then
    s.updMember fun m => { m with ownOutcome := some o }
  else s

/-- A beacon of this slot, built with this flag, is reported COLLIDED (R53, R82, R90). -/
def State.beaconCollided (f : OutFrame) (k : Slot) (flag : BeaconFlag) (s : State) : State :=
  let s := s.updMember fun m => m.record k .garbled f.start.round
  let s := s.noteOwnOutcome k .collided
  match s.member.station with
  | .tentative | .settled =>
    if s.member.ownSlot = some k then s.takeStrike f.start.round none else s
  | .leaving => if flag = .leaving then s.countLeaving else s
  | .unconfigured | .ready | .survey | .claiming | .backoff => s

/-- A beacon is reported SENT (R53, R90). -/
def State.beaconSent (f : OutFrame) (k : Slot) (flag : BeaconFlag) (s : State) : State :=
  let s := s.updMember fun m => m.record k .clean f.start.round
  let s := s.noteOwnOutcome k .sent
  match s.member.station with
  | .leaving => if flag = .leaving then s.countLeaving else s
  | .unconfigured | .ready | .survey | .claiming | .tentative | .settled | .backoff => s

/-- The open slot a claim was sent in: that of its start phase. -/
def OutFrame.slot (code : Fin 4) (f : OutFrame) : Slot := slotOfPhase code f.start.phase

/-- A mismatched half has stopped the emission: COLLIDED is reported (R26). -/
def State.reportCollided (s : State) : State :=
  match s.line.tx with
  | .sending f _ _ =>
    let handed := s.frame.sending
    let s := (s.updLine fun l => { l with tx := .idle }).freeRx.clearHanded
    match f.kind, handed with
    | .beacon, some (.beacon k flag) => s.beaconCollided f k flag
    | .beacon, _ => s
    | .claim, _ =>
      (s.updMember fun m => m.record (f.slot s.timer.lengthCode) .garbled f.start.round).claimCollided
  | .pending _ | .idle => s

/-- Frame and closing silence have ended without a mismatch: SENT is reported (R27). -/
def State.reportSent (s : State) : State :=
  match s.line.tx with
  | .sending f _ _ =>
    let handed := s.frame.sending
    let s := (s.updLine fun l => { l with tx := .idle }).freeRx.clearHanded
    match f.kind, handed with
    | .beacon, some (.beacon k flag) => s.beaconSent f k flag
    | .beacon, _ => s
    | .claim, _ =>
      (s.updMember fun m => m.record (f.slot s.timer.lengthCode) .clean f.start.round).claimSent f
  | .pending _ | .idle => s

/-! ## Along IRRX -/

/-- What an event of the line unit makes of the station. -/
def State.takeLineEvent (event : LineEvent) (s : State) : State :=
  match event with
  | .marker => s.recognise
  | .receptionEnd => s.endReception
  | .collided => s.reportCollided
  | .sent => s.reportSent

/-- While AWAKE, the line unit goes along IRRX to the next event of the present LF period, if it is this one. -/
def State.takeNext (event : LineEvent) (s : State) : State :=
  if s.Awake then
    match s.line.next with
    | some (l, next) => if next = event then State.takeLineEvent event { s with line := l } else s
    | none => s
  else s

/-- The line unit at the next microsecond of IRRX, with what comes about at its end. -/
def State.sampleWave (s : State) : State :=
  match s.line.wave with
  | [] => s
  | level :: rest =>
    match { s.line with wave := rest }.sample level with
    | (l, some event) => State.takeLineEvent event { s with line := l }
    | (l, none) => { s with line := l }

/-- While AWAKE, the line unit goes along the rest of the present LF period. -/
def State.runWave (s : State) : State :=
  if s.Awake then State.sampleWave^[s.line.wave.length] s else s

/-! ## The commands -/

/-- LISTEN_WINDOW_OPEN (R19, R20). -/
def execListenWindowOpen (s : State) : Host.Outcome State Fault Refusal := .next s.openDueWindow

/-- WINDOW_CLOSE (R20, R24, R53, R64). -/
def execWindowClose (s : State) : Host.Outcome State Fault Refusal := .next s.closeWindow

/-- MARKER_RECOGNISED (R21). -/
def execMarkerRecognised (_ : Unit) (s : State) : Host.Outcome State Fault Refusal := .next (s.takeNext .marker)

/-- RECEPTION_END (R23). -/
def execReceptionEnd (s : State) : Host.Outcome State Fault Refusal := .next (s.takeNext .receptionEnd)

/-- TRANSMIT_START (R25, R28, R29, R79). -/
def execTransmitStart (s : State) : Host.Outcome State Fault Refusal := .next s.startTransmission

/-- COLLIDED (R26, R53, R79, R82, R83, R90). -/
def execCollided (s : State) : Host.Outcome State Fault Refusal := .next (s.takeNext .collided)

/-- SENT (R27, R53, R80, R90). -/
def execSent (s : State) : Host.Outcome State Fault Refusal := .next (s.takeNext .sent)

end Sys2Proof.Machine
end

