-- ==== Sys2Proof/Machine/Boundaries.lean ====
section
/-! DEFINITION. The round timer's announcements and what the blocks do at them: SLOT_START, ROUND_WRAP,
SEAM_POINT and SURVEY_FOUNDING (R10, R11; chapters 3 to 8). -/

namespace Sys2Proof.Machine

/-! ## Building frames (R38 to R42, R127) -/

/-- The state flag of this station's beacons (R38). -/
def StationState.flag : StationState → Option BeaconFlag
  | .tentative => some .tentative
  | .settled => some .settled
  | .leaving => some .leaving
  | .unconfigured | .ready | .survey | .claiming | .backoff => none

/-- The garbled map's flag for slot `k`, in a beacon of slot `own` built in `round` (R39). -/
def Membership.reportsGarbled (m : Membership) (own : Slot) (round : Round) (k : Slot) : Bool :=
  decide ((m.slots[k]).outcome = .garbled ∧
    (m.slots[k]).outcomeRound = if k.val < own.val then round else round - 1)

/-- The beacon of slot `k` built from the state held now, with these items (R38). -/
def State.beaconFrame (k : Slot) (flag : BeaconFlag) (items : List CarryItem) (s : State) : Frame :=
  .beacon flag s.ownId s.timer.clock.round k (BitVec.ofNat 8 s.tag.members) s.tag.lowest
    (garbledMapOf (s.member.reportsGarbled k s.timer.clock.round)) items

/-- At the own slot start what has fallen due is settled, a selection is made and counted, and a beacon is built
and handed over for the beacon start instant (R38, R40, R127, R131). -/
def State.buildBeacon (k : Slot) (s : State) : State :=
  match s.member.station.flag with
  | none => s
  | some flag =>
    let s := s.settleCues
    let selection := selectCarry 3 s.cues.entries
    let s := s.updCues fun t => { t with entries := selection.2 }
    s.handFrame
      { kind := .beacon, bytes := (s.beaconFrame k flag selection.1).bytes,
        start := ⟨s.timer.clock.round, beaconStartPhase s.timer.lengthCode k⟩ }
      (.beacon k flag)

/-- At the start of the open slot that contains the drawn position a claim is built and handed over (R42). -/
def State.buildClaim (k : Slot) (s : State) : State :=
  match s.member.station, s.member.claim with
  | .claiming, some c =>
    if c.position.val / 4 = k.val then
      s.handFrame
        { kind := .claim
          bytes := (Frame.claim s.ownId s.timer.clock.round c.position c.target).bytes
          start := ⟨s.timer.clock.round, claimStartPhase s.timer.lengthCode c.position⟩ }
        .claim
    else s
  | _, _ => s

/-! ## Slot start (R10, R11) -/

/-- The announcement due in this LF period has been made. -/
def State.clearDue (s : State) : State := s.updTimer fun t => { t with due := none }

/-- The slot start that is due is announced: while AWAKE the frame unit builds what belongs to the slot. One that the old
grid made due stays due past a CONFIGURE of its LF period (log 36). -/
def State.announceSlot (s : State) : State :=
  if s.Running then
    match s.timer.due with
    | some (.slotStart k) =>
      if s.Awake then
        let s := s.clearDue
        if s.member.kind k = .own then s.buildBeacon k else s.buildClaim k
      else s.clearDue
    | some .roundWrap | none => s
  else s

/-! ## Round wrap: the tables (R54, R57, R63, R65) -/

/-- Slots with an outcome for neither the ended round nor the one after are UNHEARD (R54). -/
def Membership.markUnheard (m : Membership) (ended : Round) : Membership :=
  { m with slots := Vector.ofFn fun k : Slot =>
      let e := m.slots[k]
      if e.outcomeRound ≠ ended ∧ e.outcomeRound ≠ ended + 1 then
        { e with outcome := .unheard, outcomeRound := ended }
      else e }

/-- CLAIMED entries 3 or more rounds old return to VACANT (R57). -/
def Membership.expireClaimed (m : Membership) (round : Round) : Membership :=
  m.mapKinds fun _ kind => match kind with
    | .claimed h c => if roundsBack c round 3 then .vacant else .claimed h c
    | .openSlot | .vacant | .occupied _ | .own => kind

/-- A slot whose holder is missing from the peer table and that was SILENT in the ended round is released (R57). -/
def Membership.releaseSilent (round : Round) (m : Membership) (k : Slot) : Membership :=
  match m.kind k with
  | .occupied h =>
    if m.peer? h = none ∧ (m.slots[k]).outcome = .silent ∧ (m.slots[k]).outcomeRound = round - 1 then
      m.release k (some h)
    else m
  | .openSlot | .vacant | .claimed _ _ | .own => m

/-- The claim expiry at a wrap into `round` (R57). -/
def Membership.expireClaims (m : Membership) (round : Round) : Membership :=
  (List.finRange 32).foldl (Membership.releaseSilent round) (m.expireClaimed round)

/-- A peer's missed count at the wrap ending a round (R63). -/
def Membership.countMiss (m : Membership) (ended : Round) (p : PeerEntry) : PeerEntry :=
  match p.slot with
  | some k =>
    let e := m.slots[k]
    if e.outcomeRound = ended ∧ e.outcome ≠ .unheard ∧ p.heard ≠ ended then { p with missed := p.missed + 1 }
    else p
  | none => p

/-- Missed counts rise, and the peers that reach 4 are removed, in ascending order of id (R63, log 10). -/
def State.countMissed (ended : Round) (s : State) : State :=
  let s := s.updMember fun m => { m with peers := m.peers.map (m.countMiss ended) }
  (s.member.peers.filter fun p => decide (4 ≤ p.missed)).foldl (fun s p => s.losePeer p .silent) s

/-- CLAIMANT peers last heard 3 or more rounds before are removed (R65). -/
def State.expireClaimants (round : Round) (s : State) : State :=
  (s.member.peers.filter fun p => decide (p.state = .claimant) && roundsBack p.heard round 3).foldl
    (fun s p => s.losePeer p .silent) s

/-- The table updates of a wrap into `round` (R54, R57, R63, R65, log 10). -/
def State.wrapTables (round : Round) (s : State) : State :=
  let s := s.updMember fun m => (m.markUnheard (round - 1)).expireClaims round
  (s.countMissed (round - 1)).expireClaimants round

/-! ## Round wrap: the station (R70, R74, R78, R82, R87) -/

/-- The strike record shifts and the own beacon outcome returns to none (R70, R82). -/
def Membership.wrapRecords (m : Membership) : Membership :=
  match m.station with
  | .tentative | .settled => { m with strikeBefore := m.strikeNow, strikeNow := false, ownOutcome := none }
  | .unconfigured | .ready | .survey | .claiming | .backoff | .leaving => m

/-- Survey end, claim position draw and backoff count (R74, R78, R87). -/
def State.wrapStation (round : Round) (s : State) : State :=
  match s.member.station with
  | .survey => if s.member.surveyEnd = some round then s.enterClaiming.drawPosition else s
  | .claiming => s.drawPosition
  | .backoff =>
    if s.member.backoff = 0 then s.enterClaiming.drawPosition
    else s.updMember fun m => { m with backoff := m.backoff - 1 }
  | .unconfigured | .ready | .tentative | .settled | .leaving => s

/-- The sweep, after what has fallen due is settled (R120, R124). -/
def State.sweep (round : Round) (s : State) : State :=
  s.settleCues.updCues fun t => { t with entries := sweepCues round t.entries }

/-- What a delivered round wrap into `round` does in the HF domain. -/
def State.wrapWork (round : Round) (s : State) : State :=
  let s := (s.sweep round).wrapTables round
  ((s.updMember Membership.wrapRecords).wrapStation round).buildClaim 0

/-- The round wrap that is due is announced: the power controller sets the bar in every power state (R150),
the HF blocks work while AWAKE (R11). -/
def State.announceWrap (s : State) : State :=
  if s.Running ∧ s.timer.due = some .roundWrap then
    let round := s.timer.clock.round
    let s := s.clearDue.updPower fun p => { p with fullListenBar := fullListen round }
    if s.Awake then s.wrapWork round else s
  else s

/-! ## Seam point (R10, R98) -/

/-- The seam point is due: L−64 reached by counting in a round not yet recorded (R10). L is the present one, also where
CONFIGURE has changed it in this LF period (log 36). -/
def State.seamDue (s : State) : Bool :=
  decide (s.Running ∧ s.timer.counted ∧ s.timer.clock.phase = seamPhase s.timer.lengthCode ∧
    s.timer.seamRecord ≠ some s.timer.clock.round)

/-- What the clock has reached by counting comes about in the seam period before any move: pulses end, cues due
at L−64 fall due (R144) and slot 0's window opens (R30); and the seam record is set (R10). -/
def State.seamArrival (s : State) : State :=
  s.endPulses.fallDue.openDueWindow.updTimer fun t => { t with seamRecord := some t.clock.round }

/-- The seam point is announced; while AWAKE the two units act on it, in the order given (R98). -/
def State.announceSeam (syncFirst : Bool) (s : State) : State :=
  if s.seamDue then
    let s := s.seamArrival
    if s.Awake then
      if syncFirst then s.syncSeam.memberSeam else s.memberSeam.syncSeam
    else s
  else s

/-! ## Founding (R75) -/

/-- The founding deadline passes in a survey without an alignment. -/
def State.found (s : State) : State :=
  match s.member.surveyEntry with
  | some entry =>
    if s.Awake ∧ s.member.station = .survey ∧ s.member.surveyEnd = none ∧
        2 * (s.L : Int) ≤ instantDiff s.L s.timer.clock entry then
      (s.queue .founded).enterClaiming
    else s
  | none => s

/-! ## The commands -/

/-- SLOT_START (R10, R11, R38 to R42, R127 to R131). -/
def execSlotStart (s : State) : Host.Outcome State Fault Refusal := .next s.announceSlot

/-- ROUND_WRAP (R10, R11, R54, R57, R63, R65, R74, R78, R82, R87, R124, R150). -/
def execRoundWrap (s : State) : Host.Outcome State Fault Refusal := .next s.announceWrap

/-- SEAM_POINT (R10 to R13, R84, R85, R94 to R96, R98, R101 to R104, R144). -/
def execSeamPoint (syncFirst : Bool) (s : State) : Host.Outcome State Fault Refusal :=
  .next (s.announceSeam syncFirst)

/-- SURVEY_FOUNDING (R75). -/
def execSurveyFounding (s : State) : Host.Outcome State Fault Refusal := .next s.found

end Sys2Proof.Machine
end

