-- ==== Sys2Proof/Machine/Parse.lean ====
section
/-! DEFINITION. PARSE_RECEPTION and CARRY_ITEM: what a reception does to membership, sync unit, cue table and
round clock (R43 to R49, R55 to R62, R72, R73, R77, R81, R82, R93, R100, R105, R113 to R118, R122). -/

namespace Sys2Proof.Machine

/-! ## The slot and peer tables (R52, R55, R56, R60 to R62) -/

/-- The listening round of a reception (R52). -/
def receptionRound (code : Fin 4) (arrival : Instant) (slot : Slot) : Round :=
  if slot.val = 0 ∧ slotOfPhase code arrival.phase = 31 then arrival.round + 1 else arrival.round

/-- A native beacon's effect on the entry of its slot (R55). -/
def Membership.noteBeacon (m : Membership) (k : Slot) (sender : Byte) : Membership :=
  match m.kind k with
  | .vacant | .claimed _ _ => m.setKind k (.occupied sender)
  | .occupied _ | .own | .openSlot => m

/-- A native claim's effect on the slot table: the target, and the claimant's other claims (R56). -/
def Membership.noteClaim (m : Membership) (t : Slot) (sender : Byte) (round : Round) : Membership :=
  m.mapKinds fun k kind =>
    if k = t then
      match kind with
      | .vacant => .claimed sender round
      | .claimed h c => if sender.toNat < h.toNat then .claimed sender round else .claimed h c
      | .openSlot | .occupied _ | .own => kind
    else
      match kind with
      | .claimed h c => if h = sender then .vacant else .claimed h c
      | .openSlot | .vacant | .occupied _ | .own => kind

/-- The reported state of a beacon's flag (R59). -/
def BeaconFlag.peerState : BeaconFlag → PeerState
  | .tentative => .tentative
  | .settled => .settled
  | .leaving => .leaving

/-- A new peer entry is added when there is room, and PEER_NEW queued (R60). -/
def State.addPeer (e : PeerEntry) (s : State) : State :=
  if s.member.peers.length < 28 then
    (s.updMember fun m => { m with peers := insertPeer e m.peers }).queue (.peerNew e.id e.slot)
  else s

/-- A native beacon reaches the peer table, and any other slot its sender held is released, also where the table is
full and the sender in no entry (R58, R60, R61). -/
def State.peerBeacon (sender : Byte) (flag : BeaconFlag) (round : Round) (k : Slot) (report : PeerReport)
    (s : State) : State :=
  let s := match s.member.peer? sender with
    | none =>
      s.addPeer { id := sender, slot := some k, state := flag.peerState, heard := round, missed := 0,
                  report := some report }
    | some _ => s.updMember fun m => m.updPeer sender fun q =>
        { q with slot := some k, state := flag.peerState, heard := round, missed := 0, report := some report }
  s.updMember fun m => m.giveUp sender (some k)

/-- A native claim reaches the peer table, and any slot the claimant held is released, also where the table is full
and the claimant in no entry (R56, R58, R60, R62). -/
def State.peerClaim (sender : Byte) (round : Round) (s : State) : State :=
  let s := match s.member.peer? sender with
    | none =>
      s.addPeer { id := sender, slot := none, state := .claimant, heard := round, missed := 0, report := none }
    | some _ => s.updMember fun m => m.updPeer sender fun q =>
        { q with slot := none, state := .claimant, heard := round }
  s.updMember fun m => m.giveUp sender none

/-! ## The station (R77, R81, R82) -/

/-- A claim of this station is on the medium. -/
def Transmitter.sendingKind (t : Transmitter) (kind : FrameKind) : Bool :=
  match t with
  | .sending f _ _ => decide (f.kind = kind)
  | .idle | .pending _ => false

/-- In CLAIMING a target that has become OCCUPIED or CLAIMED by a lower id is discarded and a new one drawn,
unless a claim of this station is SENDING (R77). -/
def State.watchTarget (s : State) : State :=
  match s.member.station, s.member.target with
  | .claiming, some t =>
    if targetLost s.ownId (s.member.kind t) ∧ s.line.tx.sendingKind .claim = false then s.redrawTarget else s
  | _, _ => s

/-- A reported strike: a native SETTLED beacon of another slot whose map flags the own slot (R82). A beacon naming
the own slot is none. -/
def State.reportedStrike (sender : Byte) (round : Round) (k : Slot) (map : BitVec 32) (s : State) : State :=
  match s.member.station, s.member.ownSlot with
  | .tentative, some own | .settled, some own =>
    if own ≠ k ∧ garbledFlag map own then
      s.takeStrike (if own.val < k.val then round else round - 1) (some sender)
    else s
  | _, _ => s

/-- A lower id's claim for the own slot, in the claim round and before the own beacon: the slot is released,
set CLAIMED by the claimant, and the station returns to CLAIMING (R81, log 24). -/
def State.lowerIdTie (sender : Byte) (round : Round) (t : Slot) (s : State) : State :=
  if s.member.station = .tentative ∧ s.member.ownSlot = some t ∧ sender.toNat < s.ownId.toNat ∧
      s.member.claimRound = some s.timer.clock.round ∧ s.member.ownOutcome = none ∧
      s.line.tx.sendingKind .beacon = false then
    ((s.updMember fun m => (m.release t none).setKind t (.claimed sender round)).withdrawFrame
      .beacon).enterClaiming
  else s

/-- A native beacon at the membership controller (R55, R60, R61, R77, R82). -/
def State.nativeBeacon (sender : Byte) (flag : BeaconFlag) (round : Round) (k : Slot) (report : PeerReport)
    (map : BitVec 32) (s : State) : State :=
  let s := s.updMember fun m => m.noteBeacon k sender
  let s := s.peerBeacon sender flag round k report
  let s := if flag = .settled then s.reportedStrike sender round k map else s
  s.watchTarget

/-- A native claim at the membership controller (R56, R60, R62, R77, R81, log 12). -/
def State.nativeClaim (sender : Byte) (round : Round) (t : Slot) (s : State) : State :=
  let s := s.updMember fun m => m.noteClaim t sender round
  let s := s.peerClaim sender round
  (s.lowerIdTie sender round t).watchTarget

/-- A foreign SETTLED beacon forms a candidate in the states that keep one (R100). -/
def State.foreignSettled (c : Candidate) (s : State) : State :=
  if s.member.station.inCell then
    s.updMember fun m => { m with candidate := some (keepCandidate m.candidate c) }
  else s

/-! ## The alignment (R14, R15, R72, R73, R97, R105, R122) -/

/-- What the present clock value has reached by counting comes about before the clock is moved; a seam point that is
reached and not announced yet is not among it (log 21). -/
def State.settleBoundaries (s : State) : State := s.endPulses.fallDue.announceSlot.announceWrap

/-- The round timer takes an alignment, and line unit and power controller take the move notice; a jump of 0
changes nothing (R14, R15, R30, R150, log 14). -/
def State.jumpClock (after : Instant) (jump : Int) (s : State) : State :=
  if jump = 0 then s
  else
    ((s.updTimer fun t => { t with clock := after, seamRecord := none, counted := false }).moveArrival
      jump).updPower fun p => { p with fullListenBar := fullListen after.round }

/-- The alignment completes: the sync unit is emptied, the cue table keeps or clears, ALIGNED is queued
(R73, R97, R105, R122, R123). Reports still held are recorded here, after the move (R3, R120, log 34). -/
def State.completeAlignment (jump : Int) (s : State) : State :=
  let s := s.updSync fun u => { u with samples := [], listRound := none, closedRound := none }
  let s := s.recordReports
  let (entries, events, cleared, count) := keepOrClear s.L s.timer.clock (jump.tdiv s.L) s.cues.entries
  let s := (s.updCues fun t => { t with entries := entries }).queueAll events
  s.queue (.aligned s.timer.clock.round cleared count)

/-- The clock is set so that the reference instant lands on the target (R14). -/
def State.alignTo (reference target : Instant) (s : State) : State :=
  let s := s.settleBoundaries
  let before := s.timer.clock
  let after := instantAdd s.L target (instantDiff s.L before reference)
  let jump := instantDiff s.L after before
  (s.jumpClock after jump).completeAlignment jump

/-! ## The sync sample (R93) -/

/-- The sync unit takes a sample. -/
def SyncUnit.take (u : SyncUnit) (id : Byte) (offset : Int) (arrivalRound : Round) : SyncUnit :=
  if u.closedRound = some arrivalRound then u
  else
    let samples := if u.listRound = some arrivalRound then u.samples else []
    let u := { u with samples := samples, listRound := some arrivalRound }
    if samples.any fun x => decide (x.id = id) then
      { u with samples := samples.map fun x => if x.id = id then { x with offset := offset } else x }
    else if samples.length < 28 then { u with samples := samples ++ [{ id := id, offset := offset }] }
    else u

/-! ## Carry items (R113) -/

/-- The cue table takes the next carry item, after what has fallen due is settled (R120). -/
def State.takeItem (s : State) : State :=
  match s.frame.items with
  | [] => s
  | i :: rest =>
    let s := (s.updFrame fun u => { u with items := rest }).settleCues
    let taken := takeCarryItem s.L s.timer.clock s.ownId i s.cues.entries
    (s.updCues fun t => { t with entries := taken.1 }).queueAll taken.2

/-! ## One reception (R43 to R49) -/

/-- The hand-offs after membership: the sample of a native SETTLED beacon, then the items of a native beacon
(R48). -/
def State.handOut (flag : BeaconFlag) (sender : Byte) (offset : Int) (arrivalRound : Round)
    (items : List CarryItem) (age : Nat) (s : State) : State :=
  let s := if flag = .settled then s.updSync fun u => u.take sender offset arrivalRound else s
  s.updFrame fun u => { u with items := items, itemsAge := age }

/-- A valid beacon, after its CLEAN outcome. -/
def State.takeBeacon (r : WaitingReception) (offset : Int) (nominal : Instant) (flag : BeaconFlag)
    (sender : Byte) (round : Round) (k : Slot) (members lowest : Byte) (map : BitVec 32)
    (items : List CarryItem) (s : State) : State :=
  if s.member.station = .survey ∧ s.member.surveyEnd = none ∧ flag = .settled then
    let s := s.alignTo r.arrival nominal
    let s := s.updMember fun m => m.noteBeacon k sender
    let s := s.peerBeacon sender flag round k { offset := 0, members := members, lowest := lowest }
    let s := s.updMember fun m => { m with surveyEnd := some (s.timer.clock.round + 2) }
    s.handOut flag sender 0 nominal.round items r.age
  else if isNative offset then
    let s := s.nativeBeacon sender flag round k { offset := offset, members := members, lowest := lowest } map
    s.handOut flag sender offset r.arrival.round items r.age
  else if flag = .settled then
    s.foreignSettled { sender := sender, members := members, lowest := lowest, lead := roundLead s.L offset }
  else s

/-- The frame unit takes one reception: GARBLED for an invalid one, CLEAN and the frame's parts for a valid one. -/
def State.takeReception (r : WaitingReception) (s : State) : State :=
  let listening := receptionRound s.timer.lengthCode r.arrival r.slot
  match readFrame s.L s.ownId r.condition r.bytes with
  | none => s.updMember fun m => m.record r.slot .garbled listening
  | some frame =>
    let nominal := frame.nominal s.timer.lengthCode
    let offset := instantDiff s.L r.arrival nominal
    let s := s.updMember fun m => m.record r.slot .clean listening
    match frame with
    | .beacon flag sender round k members lowest map items =>
      s.takeBeacon r offset nominal flag sender round k members lowest map items
    | .claim sender round _ target =>
      if isNative offset then s.nativeClaim sender round target else s

/-- The oldest waiting reception is parsed, once the one before it is handed out (R37). -/
def State.parseNext (s : State) : State :=
  match s.frame.waiting, s.frame.items with
  | r :: rest, [] => (s.updFrame fun u => { u with waiting := rest }).takeReception r
  | _, _ => s

/-- Every item of the reception being handed out is taken. -/
def State.drainItems (s : State) : State := State.takeItem^[s.frame.items.length] s

/-- Every reception is parsed and handed out. -/
def State.drainReceptions (s : State) : State :=
  (fun s : State => s.parseNext.drainItems)^[s.frame.waiting.length] s.drainItems

/-- Hand-overs 48 PU old are finished in this LF period, those before them first (R37, log 18). -/
def State.finishReceptions (s : State) : State :=
  if s.Awake ∧ ((s.frame.items ≠ [] ∧ 48 ≤ s.frame.itemsAge) ∨
      (s.frame.waiting.any fun r => decide (48 ≤ r.age))) then s.drainReceptions
  else s

/-! ## The commands -/

/-- PARSE_RECEPTION (R37, R43 to R49). -/
def execParseReception (s : State) : Host.Outcome State Fault Refusal :=
  .next (if s.Awake then s.parseNext else s)

/-- CARRY_ITEM (R113 to R118). -/
def execCarryItem (s : State) : Host.Outcome State Fault Refusal :=
  .next (if s.Awake then s.takeItem else s)

end Sys2Proof.Machine
end

