-- ==== Sys2Proof/Machine/Power.lean ====
section
/-! DEFINITION. The power controller: ENTER_DOZE, WAKE_PLAN and HF_STABLE (chapter 10). -/

namespace Sys2Proof.Machine

/-! ## When the station may doze (R150, R151) -/

/-- The doze enable of the configuration; clear before CONFIGURE (R150, R175). -/
def State.dozeEnabled (s : State) : Bool :=
  match s.port.config with
  | some c => decide (c.doze ≠ 0)
  | none => false

/-- The station states in which doze is permitted (R150). -/
def StationState.mayDoze : StationState → Bool
  | .ready | .backoff | .tentative | .settled | .leaving => true
  | .unconfigured | .survey | .claiming => false

/-- The full-listen bar as it stands in this LF period: a round wrap that is due sets or clears it in the LF period
in which it is made (R11, R150). -/
def State.barNow (s : State) : Bool :=
  if s.timer.due = some .roundWrap then fullListen s.timer.clock.round else s.power.fullListenBar

/-- Doze is permitted (R150). -/
def State.dozePermitted (s : State) : Bool :=
  s.dozeEnabled && s.member.station.mayDoze && !s.barNow

/-- How many PU ahead of the clock the next planned window of slot `k` opens; none when the plan for the
window's round leaves the slot out (R151). -/
def State.needOf (s : State) (k : Slot) : Option Nat :=
  let n := toWindowOpen s.timer.lengthCode s.timer.clock.phase k
  let opening := instantAdd s.L s.timer.clock n
  if s.member.planned k (windowRound s.timer.lengthCode opening k) then some n else none

/-- How many PU ahead of the clock the next need instant lies (R151). -/
def State.nextNeed (s : State) : Option Nat :=
  ((List.finRange 32).filterMap s.needOf).foldl
    (fun best n => match best with
      | none => some n
      | some b => some (min b n)) none

/-- Doze is entered: the oscillator stops, the dozed flag is set, the wake instant is 64 PU before the next
need, or none in READY (R153). -/
def State.doze (wake : Option Instant) (s : State) : State :=
  s.updPower fun p => { p with state := .doze, wake := wake, dozed := true }

/-- The controller's test in each LF period (R153). -/
def State.enterDoze (s : State) : State :=
  if s.Awake ∧ s.dozePermitted ∧ s.hfRequest = false then
    if s.member.station = .ready then s.doze none
    else match s.nextNeed with
      | some n => if 128 < n then s.doze (some (instantAdd s.L s.timer.clock ((n : Int) - 64))) else s
      | none => s
  else s

/-! ## Waking (R149, R154) -/

/-- In DOZE the clock has reached the wake instant by counting. -/
def State.wakeByPlan (s : State) : State :=
  if s.Running ∧ s.timer.counted ∧ s.power.wake = some s.timer.clock then s.wakeFor .plan else s

/-- The planned slot whose window should be open now: its opening phase has passed and its close phase has not
(R20, R31, R154); one that did not open at its opening phase though the HF domain was AWAKE then, too (log 37). -/
def State.windowNow (s : State) : Option Slot :=
  if s.member.station.inCell then
    (List.finRange 32).find? fun k =>
      decide (sinceWindowOpen s.timer.lengthCode s.timer.clock.phase k < windowSpan s.timer.lengthCode k) &&
        s.member.planned k (windowRound s.timer.lengthCode s.timer.clock k)
  else none

/-- The line unit as the HF domain comes up (R31): IDLE, DISARMED, no window, no carrier history. A burst in this LF
period, in which the station is AWAKE, counts for the history when the period ends (R28, log 31). -/
def LineUnit.comeUp (l : LineUnit) : LineUnit :=
  { LineUnit.reset with carrierNow := l.carrierNow, irrx := l.irrx, wave := l.wave }

/-- The oscillator is stable: AWAKE, with an empty line unit and the due window opened at once (R31, R149,
R154, log 37). -/
def State.hfUp (s : State) : State :=
  if s.Running ∧ s.power.state = .starting then
    let s := s.updPower fun p => { p with state := .awake }
    let s := s.updLine LineUnit.comeUp
    match s.windowNow with
    | some k => s.openWindow k
    | none => s.rearm
  else s

/-! ## The commands -/

/-- ENTER_DOZE (R150 to R153). -/
def execEnterDoze (s : State) : Host.Outcome State Fault Refusal := .next s.enterDoze

/-- WAKE_PLAN (R154). -/
def execWakePlan (s : State) : Host.Outcome State Fault Refusal := .next s.wakeByPlan

/-- HF_STABLE (R20, R31, R149, R154). -/
def execHfStable (s : State) : Host.Outcome State Fault Refusal := .next s.hfUp

end Sys2Proof.Machine
end

