-- ==== Sys2Proof/Machine/Period.lean ====
section
/-! DEFINITION. LF_PERIOD: what the present LF period still owes, then the count into the next one (R1). -/

namespace Sys2Proof.Machine

/-- The HF oscillator is stable at most 60 PU after it was started (R149, log 18). -/
def State.hfLimit (s : State) : State := if 60 ≤ s.power.startAge then s.hfUp else s

/-- The seam point, if it is still due; which unit acts first is a free choice (R98, log 8). -/
def State.freeSeam (s : State) : State :=
  if s.seamDue then
    { s with freeCount := s.freeCount + 1 }.announceSeam (Config.syncActsFirst s.freeCount)
  else s

/-- While AWAKE the held firing reports are recorded (R120, R146). -/
def State.recordHeld (s : State) : State := if s.Awake then s.recordReports else s

/-- Everything that falls in the present LF period and that no command has brought about yet, in one fixed
order: what the clock reached by counting first, then what IRRX shows, then the window's close (logs 3, 30). -/
def State.finishPeriod (s : State) : State :=
  let s := s.hfLimit.endPulses.fallDue
  let s := s.openDueWindow.startTransmission.freeSeam.announceWrap.announceSlot
  let s := s.runWave.closeWindow.found.wakeByPlan
  s.recordHeld.finishReceptions.enterDoze

/-- What is announced when the count brings the phase to a slot start (R10). -/
def boundaryAt (code : Fin 4) (phase : Nat) : Option Boundary :=
  if phase = 0 then some .roundWrap
  else if phase % slotLength code = 0 then some (.slotStart (slotOfPhase code phase))
  else none

/-- The round timer counts (R1). -/
def RoundTimer.tick (t : RoundTimer) : RoundTimer :=
  let c := countOne (roundLength t.lengthCode) t.clock
  { t with clock := c, counted := true, due := boundaryAt t.lengthCode c.phase }

/-- The present LF period joins the carrier history, which is kept while AWAKE (R28). -/
def LineUnit.shiftHistory (l : LineUnit) : LineUnit := { l with history := (l.carrierNow :: l.history).take 8 }

/-- The levels IRRX shows in the LF period that begins; what it showed to the end of the one before has passed. -/
def LineUnit.load (irrx : List Bool) (l : LineUnit) : LineUnit :=
  { l with irrx := l.wave.getLast?.getD l.irrx, wave := irrx, carrierNow := irrx.any carrierOn }

/-- Hand-overs grow older by one LF period (log 18). -/
def FrameUnit.tick (u : FrameUnit) : FrameUnit :=
  { u with waiting := u.waiting.map fun r => { r with age := r.age + 1 }, itemsAge := u.itemsAge + 1 }

/-- The oscillator's start-up goes on, up to 60 PU (R149). -/
def PowerController.tick (p : PowerController) : PowerController :=
  match p.state with
  | .starting => { p with startAge := min 60 (p.startAge + 1) }
  | .awake | .doze => p

/-- The next LF period begins: count, pulse countdown, and what IRRX shows in it (R1, R28, R142). -/
def State.tick (irrx : List Bool) (s : State) : State :=
  let s := (s.updTimer RoundTimer.tick).updFiring fun u => u.mapLines ActionLine.countDown
  let s := if s.power.state = .awake then (s.updLine LineUnit.shiftHistory).updFrame FrameUnit.tick else s
  (s.updLine (LineUnit.load irrx)).updPower PowerController.tick

/-- LF_PERIOD (R1). While a cold reset is in progress the clock is held at 0:0 (R16); after RSTn the LF
oscillator runs on and an oscillator started goes on starting (log 7). -/
def State.lfPeriod (irrx : List Bool) (s : State) : State :=
  match s.resetting with
  | none => s.finishPeriod.tick irrx
  | some .resetLine => s.updPower PowerController.tick
  | some .powerOn => s

def execLfPeriod (irrx : List Bool) (extra : Option Bool) (s : State) : Host.Outcome State Fault Refusal :=
  .next (s.lfPeriod (irrx ++ extra.toList))

end Sys2Proof.Machine
end

