-- ==== Sys2Proof/Machine/Reset.lean ====
section
/-! DEFINITION. The cold reset: POWER_ON, RSTN_ACTIVE and RESET_DONE (R16, R32, R50, R69, R92, R125, R148,
R158, R172). -/

namespace Sys2Proof.Machine

/-- A cold reset begins: every block takes its reset values, the clock is held at 0:0. The queue of commands and
the model's counter are no part of the station. -/
def State.coldReset (cause : ResetCause) (power : PowerController) (s : State) : State :=
  { timer := RoundTimer.reset, line := LineUnit.reset, frame := FrameUnit.reset,
    member := Membership.reset, sync := SyncUnit.reset, cues := CueTable.reset,
    firing := FiringUnit.reset, power := power, port := HostPort.reset,
    resetting := some cause, freeCount := s.freeCount, pending := s.pending }

/-- How long the HF oscillator has been started when RSTn becomes active: stable if the station was AWAKE,
starting on if it was STARTING, started now if it was in DOZE (R158, log 7). -/
def PowerController.ageAtReset (p : PowerController) : Nat :=
  match p.state with
  | .awake => 60
  | .starting => p.startAge
  | .doze => 0

/-- RSTn is active: a cold reset with cause RESET_LINE, unless a power-on reset is in progress (R172). -/
def State.resetByLine (s : State) : State :=
  match s.resetting with
  | some _ => s
  | none => s.coldReset .resetLine { PowerController.reset with startAge := s.power.ageAtReset }

/-- The cold reset in progress ends: RESET_DONE is appended at 0:0 (R172). -/
def State.endReset (s : State) : State :=
  match s.resetting with
  | some cause => { s with resetting := none }.queue (.resetDone cause)
  | none => s

/-- POWER_ON. -/
def execPowerOn (s : State) : Host.Outcome State Fault Refusal :=
  .next (s.coldReset .powerOn PowerController.reset)

/-- RSTN_ACTIVE: a low level of 10 µs or more; shorter pulses are filtered out (R176). -/
def execRstnActive (lowMicroseconds : Nat) (s : State) : Host.Outcome State Fault Refusal :=
  .next (if 10 ≤ lowMicroseconds then s.resetByLine else s)

/-- RESET_DONE. -/
def execResetDone (s : State) : Host.Outcome State Fault Refusal := .next s.endReset

end Sys2Proof.Machine
end

