-- ==== Sys2Proof/Machine/Dispatch.lean ====
section
/-! DEFINITION. One arm per command. -/

namespace Sys2Proof.Machine

def exec (i : Instr) (s : State) : Host.Outcome State Fault Refusal :=
  match i with
  | .powerOn => Sys2Proof.Machine.execPowerOn s
  | .rstnActive lowMicroseconds => Sys2Proof.Machine.execRstnActive lowMicroseconds s
  | .resetDone => Sys2Proof.Machine.execResetDone s
  | .lfPeriod irrx extra => Sys2Proof.Machine.execLfPeriod irrx extra s
  | .slotStart => Sys2Proof.Machine.execSlotStart s
  | .roundWrap => Sys2Proof.Machine.execRoundWrap s
  | .seamPoint syncFirst => Sys2Proof.Machine.execSeamPoint syncFirst s
  | .surveyFounding => Sys2Proof.Machine.execSurveyFounding s
  | .listenWindowOpen => Sys2Proof.Machine.execListenWindowOpen s
  | .windowClose => Sys2Proof.Machine.execWindowClose s
  | .markerRecognised nothing => Sys2Proof.Machine.execMarkerRecognised nothing s
  | .receptionEnd => Sys2Proof.Machine.execReceptionEnd s
  | .transmitStart => Sys2Proof.Machine.execTransmitStart s
  | .collided => Sys2Proof.Machine.execCollided s
  | .sent => Sys2Proof.Machine.execSent s
  | .parseReception => Sys2Proof.Machine.execParseReception s
  | .carryItem => Sys2Proof.Machine.execCarryItem s
  | .cueFallsDue => Sys2Proof.Machine.execCueFallsDue s
  | .pulseEnd line => Sys2Proof.Machine.execPulseEnd line s
  | .recordFiringReport => Sys2Proof.Machine.execRecordFiringReport s
  | .enterDoze => Sys2Proof.Machine.execEnterDoze s
  | .wakePlan => Sys2Proof.Machine.execWakePlan s
  | .hfStable => Sys2Proof.Machine.execHfStable s
  | .selnAsserted => Sys2Proof.Machine.execSelnAsserted s
  | .commandTaken sdi => Sys2Proof.Machine.execCommandTaken sdi s
  | .fetch part => Sys2Proof.Machine.execFetch part s
  | .unknownCommand => Sys2Proof.Machine.execUnknownCommand s
  | .malformed => Sys2Proof.Machine.execMalformed s
  | .configure => Sys2Proof.Machine.execConfigure s
  | .start => Sys2Proof.Machine.execStart s
  | .leave => Sys2Proof.Machine.execLeave s
  | .restart => Sys2Proof.Machine.execRestart s
  | .post => Sys2Proof.Machine.execPost s
  | .withdraw => Sys2Proof.Machine.execWithdraw s
  | .readStatus => Sys2Proof.Machine.execReadStatus s
  | .readCue => Sys2Proof.Machine.execReadCue s
  | .readPeer => Sys2Proof.Machine.execReadPeer s
  | .readSlots => Sys2Proof.Machine.execReadSlots s
  | .takeEvent => Sys2Proof.Machine.execTakeEvent s

end Sys2Proof.Machine
end

