-- ==== Sys2Proof/Machine/Step.lean ====
section
/-! DEFINITION. One step: the oldest waiting command, with the queue's rest. -/

namespace Sys2Proof.Machine

/-- The command at the front of the queue is executed on the state with the queue's rest; on an empty queue the
station idles (log 1). -/
def step (s : State) : Host.Outcome State Fault Refusal :=
  match s.pending with
  | [] => .next s
  | c :: rest => exec c { s with pending := rest }

/-- The state with the command a word spells at the front of its queue. -/
def State.withFetchWord (s : State) (nbits w : Nat) : State :=
  match decodeTableWord nbits w with
  | some c => { s with pending := c :: s.pending }
  | none => s

end Sys2Proof.Machine
end

