-- ==== Sys2Proof/Safety.lean ====
section
/-! DEFINITION. What a safe state is: the invariants that the rules of the manual state or rest on. -/

namespace Sys2Proof.Machine

/-- The phase runs from 0 to L−1 (the round timer's table, R1). -/
def State.ClockOk (s : State) : Prop := s.timer.clock.phase < s.L

/-- The lock is set exactly with a stored, accepted configuration, which gives the round length; before it the
station is UNCONFIGURED and L is 16384, and after it the station never is (R2, R71, R166). -/
def State.ConfigOk (s : State) : Prop :=
  match s.port.config with
  | none => s.port.locked = false ∧ s.member.station = .unconfigured ∧ s.timer.lengthCode = 0
  | some c =>
    s.port.locked = true ∧ s.member.station ≠ .unconfigured ∧ c.accepted = true ∧
      s.timer.lengthCode.val = c.lengthCode.toNat

/-- Once configured, the LFSR is never 0 (R68). -/
def State.LfsrOk (s : State) : Prop := s.port.config ≠ none → s.member.lfsr ≠ 0

/-- An OVERFLOW record (R171). -/
def EventKind.isOverflow : EventKind → Bool
  | .overflow _ => true
  | _ => false

/-- At most 16 records, OVERFLOW only as the newest and always as the 16th, its count 1 to 255 (R171). -/
def eventsOk (events : List EventRecord) : Prop :=
  events.length ≤ 16 ∧
  (∀ e ∈ events.dropLast, e.kind.isOverflow = false) ∧
  (events.length = 16 → ∃ e, events.getLast? = some e ∧ e.kind.isOverflow = true) ∧
  ∀ e ∈ events, ∀ n, e.kind = .overflow n → 1 ≤ n ∧ n ≤ 255

/-- The event queue and the taken list keep their bounds (R161, R171). -/
def State.PortOk (s : State) : Prop := eventsOk s.port.events ∧ s.port.taken.length ≤ 4

/-- At most 24 entries, no two with one key, no forward count above its limit, at most 8 own entries PENDING or
WITHDRAWN (R107, R108, R131). -/
def cuesOk (entries : List CueEntry) : Prop :=
  entries.length ≤ 24 ∧
  (entries.map fun e => (e.origin, e.seq)).Nodup ∧
  (∀ e ∈ entries, e.forward ≤ e.forwardLimit) ∧
  ownCount entries ≤ 8

/-- The cue table keeps its bounds. -/
def State.CuesOk (s : State) : Prop := cuesOk s.cues.entries

/-- The cue table stands in strictly increasing order of due instant, origin id and sequence number, and every due
phase held or handed over is below L (R36, R106, R107). -/
def State.CuesInOrder (s : State) : Prop :=
  s.cues.entries.Pairwise (fun a b => a.before s.L b = true) ∧
  (∀ e ∈ s.cues.entries, e.due.phase < s.L) ∧
  (∀ i ∈ s.frame.items, i.due.phase < s.L)

/-- Every due round held lies within 2^20 rounds of the clock, far from where the differences of R4 turn over; R107
says that the due instants held lie nearer still, within 4096 rounds after the clock or a few before it. -/
def State.CuesNear (s : State) : Prop :=
  ∀ e ∈ s.cues.entries, -(2 ^ 20 : Int) ≤ (e.due.round - s.timer.clock.round).toInt ∧
    (e.due.round - s.timer.clock.round).toInt ≤ 2 ^ 20

/-- Before CONFIGURE the station does nothing on the medium and holds nothing it heard (the states of 5.1, R19, R71). -/
def State.SilentBeforeConfigure (s : State) : Prop :=
  s.port.config = none →
    s.line.tx = .idle ∧ s.line.rx = .disarmed ∧ s.line.window = none ∧ s.frame.waiting = [] ∧
    s.frame.items = [] ∧ s.cues.entries = []

/-- The states in which a slot is OWN (R51). -/
def StationState.holdsSlot : StationState → Bool
  | .tentative | .settled | .leaving => true
  | .unconfigured | .ready | .survey | .claiming | .backoff => false

/-- Slots 0 to 3 and no others are OPEN, the OWN slot is the own slot, there is one exactly in TENTATIVE, SETTLED
and LEAVING, and target and claim in hand name claimable slots (R51, R70). -/
def Membership.SlotsOk (m : Membership) : Prop :=
  (∀ k, m.kind k = .openSlot ↔ k.val < 4) ∧
  (∀ k, m.kind k = .own ↔ m.ownSlot = some k) ∧
  (m.ownSlot.isSome = m.station.holdsSlot) ∧
  (∀ k, m.target = some k → 4 ≤ k.val) ∧
  (∀ c, m.claim = some c → 4 ≤ c.target.val)

/-- At most 28 peers in strictly ascending order of id, no missed count at 4 (R59, R63). -/
def Membership.PeersOk (m : Membership) : Prop :=
  m.peers.length ≤ 28 ∧ (m.peers.map fun p => p.id.toNat).Pairwise (· < ·) ∧ ∀ p ∈ m.peers, p.missed < 4

/-- At most 28 samples, one an id; a last correction from −8 to +8 (R93, R95). -/
def SyncUnit.Ok (u : SyncUnit) : Prop :=
  u.samples.length ≤ 28 ∧ (u.samples.map Sample.id).Nodup ∧ -8 ≤ u.lastCorrection ∧ u.lastCorrection ≤ 8

/-- A pulsing line has a remaining count from 1 to 255 (R137). -/
def ActionLine.Ok (l : ActionLine) : Prop := ∀ r, l.state = .pulsing r → 1 ≤ r ∧ r ≤ 255

/-- Lines pulse with counts from 1 to 255, since every PULSE held or handed over has a width (R36, R106, R137). -/
def State.LinesOk (s : State) : Prop :=
  (∀ n : Fin 4, (s.firing.lines[n]).Ok) ∧
  (∀ e ∈ s.cues.entries, e.action = .pulse → e.width ≠ 0) ∧
  (∀ i ∈ s.frame.items, i.action = .pulse → i.width ≠ 0)

/-- The backoff remaining is at most 8 and the try count below 4, since 4 tries are discarded (R70). -/
def Membership.CountsOk (m : Membership) : Prop := m.backoff ≤ 8 ∧ m.tries < 4

end Sys2Proof.Machine
end

