-- ==== Sys2Proof/Certificates/Slice0/Obligations.lean ====
section
/-! DEFINITION. The statements for the provers, in the order of the manual's chapters. -/

open Sys2Proof Sys2Proof.Machine

/-! ## The step -/

/-- A step executes the command at the front of the queue on the state with the queue's rest, and idles on an
empty queue (the model's convention, log 1). -/
def Obligations.StepExecutesFrontCommand : Prop :=
  (∀ (c : Instr) (rest : List Instr) (s : State),
    step { s with pending := c :: rest } = exec c { s with pending := rest }) ∧
  (∀ s : State, s.pending = [] → step s = .next s)

/-- Every command answers a next state in every state, and leaves the queue alone. This is the model's own choice: a
row whose condition does not hold changes nothing (log 2), and the queue is no part of the station (log 1). -/
def Obligations.EveryCommandCompletes : Prop :=
  ∀ (c : Instr) (s : State), ∃ t, exec c s = .next t ∧ t.pending = s.pending

/-! ## Cold reset (R16, R32, R50, R69, R70, R92, R125, R148, R158, R172) -/

/-- From any state, POWER_ON and then RESET_DONE leave what the manual says a power-on cold reset leaves; the reset
state of the model is that state. That the reset has just ended in it is the model's choice (log 6; R16, R32, R50, R69,
R70, R92, R125, R148, R158, R165, R172). -/
def Obligations.ResetStateIsAsTheManualSays : Prop :=
  ∀ before : State, ∃ held s, exec .powerOn before = .next held ∧ exec .resetDone held = .next s ∧
  s = { State.reset with freeCount := before.freeCount, pending := before.pending } ∧
  s.timer.clock = ⟨0, 0⟩ ∧ s.L = 16384 ∧ s.timer.seamRecord = none ∧ s.timer.due = none ∧
  s.line.tx = .idle ∧ s.line.rx = .disarmed ∧ s.line.window = none ∧ s.line.history = [] ∧
  s.frame.sending = none ∧ s.frame.waiting = [] ∧ s.frame.items = [] ∧
  s.member.station = .unconfigured ∧ s.member.peers = [] ∧ s.member.lfsr = 0 ∧
  (∀ k : Slot, s.member.slots[k] =
    { kind := if k.val < 4 then .openSlot else .vacant, outcome := .unheard, outcomeRound := 0 }) ∧
  s.member.surveyEntry = none ∧ s.member.surveyEnd = none ∧ s.member.target = none ∧
  s.member.claim = none ∧ s.member.tries = 0 ∧ s.member.ownSlot = none ∧ s.member.claimRound = none ∧
  s.member.cleanRounds = 0 ∧ s.member.strikeNow = false ∧ s.member.strikeBefore = false ∧
  s.member.ownOutcome = none ∧ s.member.backoff = 0 ∧ s.member.leavingBeacons = 0 ∧
  s.member.candidate = none ∧
  s.sync = { samples := [], listRound := none, closedRound := none, lastCorrection := 0 } ∧
  s.cues = { entries := [], nextSeq := 0 } ∧
  (∀ n : Fin 4, (s.firing.lines[n]).state = .idle ∧ (s.firing.lines[n]).activeLow = false) ∧
  s.firing.reports = [] ∧
  s.power.state = .starting ∧ s.power.wake = none ∧ s.power.fullListenBar = false ∧
  s.power.lastCause = .none ∧ s.power.dozed = false ∧
  s.port.config = none ∧ s.port.locked = false ∧ s.port.taken = [] ∧ s.port.response = none ∧
  s.port.lost = false ∧ s.port.events = [⟨.resetDone .powerOn, ⟨0, 0⟩⟩] ∧ s.attn = true

/-- POWER_ON puts every block at its reset values, whatever it held, with an empty event queue until the reset
ends; RSTn low for 10 µs or more does the same with cause RESET_LINE, and keeps the HF oscillator's start-up
(log 7); a shorter pulse is filtered out, and a reset in progress stays as it is. RESET_DONE ends it: the event with
the cause stands in the queue at 0:0, ATTN goes active and nothing else changes; without a reset in progress it
changes nothing (R16, R165, R172, R176). -/
def Obligations.ColdResetClearsEveryBlockUntilItsEnd : Prop :=
  (∀ s : State, exec .powerOn s = .next
    { State.reset with
      port := { State.reset.port with events := [] }
      resetting := some .powerOn, freeCount := s.freeCount, pending := s.pending }) ∧
  (∀ (low : Nat) (s : State), 10 ≤ low → s.resetting = none →
    exec (.rstnActive low) s = .next
      { State.reset with
        power := { State.reset.power with
          startAge := match s.power.state with
            | .awake => 60
            | .starting => s.power.startAge
            | .doze => 0 }
        port := { State.reset.port with events := [] }
        resetting := some .resetLine, freeCount := s.freeCount, pending := s.pending }) ∧
  (∀ (low : Nat) (s : State), low < 10 → exec (.rstnActive low) s = .next s) ∧
  (∀ (low : Nat) (s : State) (cause : ResetCause), s.resetting = some cause →
    exec (.rstnActive low) s = .next s) ∧
  (∀ (s : State) (cause : ResetCause), s.resetting = some cause → s.port.events = [] →
    s.timer.clock = ⟨0, 0⟩ →
    ∃ t, exec .resetDone s = .next t ∧
      t = { s with resetting := none
                   port := { s.port with events := [⟨.resetDone cause, ⟨0, 0⟩⟩] } } ∧
      s.attn = false ∧ t.attn = true) ∧
  (∀ s : State, s.resetting = none → exec .resetDone s = .next s)

/-- While a cold reset is in progress, no command but the three reset rows changes anything except the
oscillator's start-up age, which is the model's own field (R16, R149, R159, R172; log 7). -/
def Obligations.NothingActsInColdReset : Prop :=
  ∀ (c : Instr) (s : State), s.resetting.isSome = true → s.firing = FiringUnit.reset →
    c ≠ .powerOn → (∀ low, c ≠ .rstnActive low) → c ≠ .resetDone →
    ∃ age, exec c s = .next { s with power := { s.power with startAge := age } }

/-! ## Round clock (chapter 1) -/

/-- The difference of instants, and adding PU and rounds (R4, R5): a number of PU below 2^23 − 1 rounds in size, when
added, is the difference from where it started. -/
def Obligations.InstantArithmetic : Prop :=
  (∀ (L : Nat) (a b : Instant),
    instantDiff L a b = (a.round - b.round).toInt * L + (a.phase - b.phase : Int)) ∧
  (∀ (L : Nat) (a : Instant) (n : Int), 0 < L → a.phase < L →
    -(2 ^ 23 - 1) * (L : Int) < n → n < (2 ^ 23 - 1) * (L : Int) →
    (instantAdd L a n).phase < L ∧ instantDiff L (instantAdd L a n) a = n) ∧
  (∀ (a : Instant) (k : Nat),
    instantAddRounds a k = { round := a.round + BitVec.ofNat 24 k, phase := a.phase })

/-- A reception or carry item has been waiting for 48 PU, so that LF_PERIOD finishes it (R37, log 18). -/
def Sys2Proof.Machine.State.HandOverOld (s : State) : Prop :=
  s.frame.items ≠ [] ∧ 48 ≤ s.frame.itemsAge ∨ ∃ r ∈ s.frame.waiting, 48 ≤ r.age

/-- LF_PERIOD counts in every station state: the phase advances by one, from L−1 to 0 with the next round number.
Where the seam point of this period is still due it comes first, with its correction, at most the one of this round's
samples. That the boundary reached is marked as due until its row makes it, and that the round number advances here
and not in ROUND_WRAP, is log 4. Left out: a period in which an alignment can come about, in SURVEY, or at the seam
point that moves there, with a reception 48 PU old (R1, R10, R12). -/
def Obligations.LfPeriodCountsTheClock : Prop :=
  ∀ (irrx : List Bool) (extra : Option Bool) (s : State), s.resetting = none → s.ClockOk →
    (s.member.station ≠ .survey ∧ s.seamDue = false ∨ ¬ s.HandOverOld) →
    ∃ (t : State) (c : Int), exec (.lfPeriod irrx extra) s = .next t ∧
      (c = 0 ∨ s.seamDue = true ∧ s.member.station.inCell = true ∧ c = correctionOf
        (if s.sync.listRound = some s.timer.clock.round then s.sync.samples.map Sample.offset else [])) ∧
      t.timer.clock =
        (if s.timer.clock.phase = s.L - 1 then ⟨s.timer.clock.round + 1, 0⟩
         else ⟨s.timer.clock.round, ((s.timer.clock.phase : Int) + c + 1).toNat⟩) ∧
      t.timer.lengthCode = s.timer.lengthCode ∧
      t.timer.seamRecord = (if s.seamDue then some s.timer.clock.round else s.timer.seamRecord) ∧
      t.timer.counted = true ∧
      (t.timer.due = some .roundWrap ↔ t.timer.clock.phase = 0) ∧
      (∀ k : Slot, t.timer.due = some (.slotStart k) ↔
        0 < k.val ∧ t.timer.clock.phase = k.val * s.S)

/-- Some rows in order, each on the state the one before left. -/
def Sys2Proof.Machine.runRows : List Instr → State → Host.Outcome State Fault Refusal
  | [], s => .next s
  | c :: rest, s =>
    match exec c s with
    | .next t => runRows rest t
    | other => other

/-- The row of an event of the line unit. -/
def Sys2Proof.Machine.LineEvent.row : LineEvent → Instr
  | .marker => .markerRecognised ()
  | .receptionEnd => .receptionEnd
  | .collided => .collided
  | .sent => .sent

/-- What LF_PERIOD does with what is still owed: the rows of the present LF period that have not come about, in the
order of log 3, a seam point still due in an open order of the two units (log 8), the line unit's rows as IRRX brings
them (log 25), held reports and receptions 48 PU old finished (log 18); then the count of the next period. The order
is the model's choice (R1, R10, R20, R25, R37, R98, R120, R139, R142, R149). -/
def Obligations.LfPeriodBringsAboutWhatIsOwed : Prop :=
  (∀ (irrx : List Bool) (extra : Option Bool) (s : State), s.resetting = none →
    ∃ (syncFirst : Bool) (hand : List Instr) (a b c d e : State),
      runRows ((if 60 ≤ s.power.startAge then [.hfStable] else []) ++
        [.pulseEnd 0, .pulseEnd 1, .pulseEnd 2, .pulseEnd 3, .cueFallsDue, .listenWindowOpen, .transmitStart]) s =
        .next a ∧
      runRows [.seamPoint syncFirst, .roundWrap, .slotStart]
        { a with freeCount := if a.seamDue then a.freeCount + 1 else a.freeCount } = .next b ∧
      runRows [.windowClose, .surveyFounding, .wakePlan] b.runWave = .next c ∧
      runRows (List.replicate c.firing.reports.length .recordFiringReport) c = .next d ∧
      (∀ row ∈ hand, row = .parseReception ∨ row = .carryItem) ∧
      runRows hand d = .next e ∧
      (¬ (d.Awake ∧ d.HandOverOld) → hand = []) ∧
      (d.Awake → d.HandOverOld → e.frame.waiting = [] ∧ e.frame.items = []) ∧
      ∃ f, runRows [.enterDoze] e = .next f ∧ exec (.lfPeriod irrx extra) s = .next (f.tick (irrx ++ extra.toList))) ∧
  (∀ (s : State) (l : LineUnit) (event : LineEvent), s.Awake → s.line.next = some (l, event) →
    ∃ t, exec event.row s = .next t ∧ s.runWave = t.runWave ∧ t.line.wave = l.wave ∧
      l.wave.length < s.line.wave.length) ∧
  (∀ s : State, s.Awake → s.line.next = none →
    ∃ l, s.runWave = { s with line := l } ∧ l.wave = [] ∧ l.window = s.line.window ∧
      l.history = s.line.history ∧ l.carrierNow = s.line.carrierNow) ∧
  (∀ s : State, ¬ s.Awake → s.runWave = s)

/-- Nothing is owed in the present LF period: nothing is due, ended, reached or held that LF_PERIOD would have
to finish before it counts, no start-up has run to its bound, and no doze would be entered (log 3). Transmitter,
receiver, window and power state may be any. -/
def Sys2Proof.Machine.State.NothingOwed (s : State) : Prop :=
  (∀ n : Fin 4, (s.firing.lines[n]).ending = false) ∧ s.dueNow = [] ∧ s.firing.reports = [] ∧
  (∀ f, s.line.tx = .pending f → s.timer.clock ≠ f.start) ∧ s.line.next = none ∧
  s.windowDue = none ∧
  (∀ w, s.line.window = some w → s.timer.clock.phase ≠ windowClosePhase s.timer.lengthCode w.slot) ∧
  s.seamDue = false ∧ s.timer.due = none ∧
  (s.member.station ≠ .survey ∨ s.member.surveyEnd ≠ none ∨
    ∀ entry, s.member.surveyEntry = some entry → instantDiff s.L s.timer.clock entry < 2 * (s.L : Int)) ∧
  s.power.wake ≠ some s.timer.clock ∧ (s.power.state = .starting → s.power.startAge < 60) ∧
  ¬ s.HandOverOld ∧ exec .enterDoze s = .next s

/-- Where nothing is owed, LF_PERIOD changes the clock, counts every pulse down by one (marking one whose count would
reach 0, which is IDLE from now on), goes on with an oscillator's start-up, and takes up the new levels of IRRX; while
AWAKE the line unit goes along the old ones to their end, the carrier history takes up whether they showed a burst, and
the hand-overs grow older. It changes nothing else (R1, R22, R28, R142, R149; logs 5, 18, 23, 25). -/
def Obligations.LfPeriodChangesNothingElse : Prop :=
  ∀ (irrx : List Bool) (extra : Option Bool) (s : State), s.resetting = none → s.NothingOwed →
    let levels := irrx ++ extra.toList
    ∃ t, exec (.lfPeriod irrx extra) s = .next t ∧
      t = { s with timer := t.timer, firing := t.firing, power := t.power, line := t.line, frame := t.frame } ∧
      t.firing.reports = [] ∧
      (∀ n : Fin 4, t.firing.lines[n] =
        match (s.firing.lines[n]).state with
        | .pulsing r =>
          if r ≤ 1 then { s.firing.lines[n] with ending := true }
          else { s.firing.lines[n] with state := .pulsing (r - 1) }
        | _ => s.firing.lines[n]) ∧
      t.power = { s.power with
        startAge := if s.power.state = .starting then s.power.startAge + 1 else s.power.startAge } ∧
      t.line.wave = levels ∧ t.line.carrierNow = levels.any (fun level => !level) ∧
      t.line.irrx = s.line.wave.getLast?.getD s.line.irrx ∧
      (s.power.state ≠ .awake → t.frame = s.frame ∧
        t.line = { s.line with wave := levels, carrierNow := t.line.carrierNow, irrx := t.line.irrx }) ∧
      (s.power.state = .awake →
        t.line = { s.runWave.line with
          wave := levels, carrierNow := t.line.carrierNow, irrx := t.line.irrx
          history := (s.line.carrierNow :: s.line.history).take 8 } ∧
        t.frame = { s.frame with
          waiting := s.frame.waiting.map fun r => { r with age := r.age + 1 }
          itemsAge := s.frame.itemsAge + 1 })

/-! ## Announcements and building frames (chapters 1, 3, 4 and 8) -/

/-- The own slot start, while AWAKE: what has fallen due is settled, up to three items are selected and counted, and
the beacon built from the state held now is PENDING for its start instant; a station has the OWN slot only in the
states that give a flag. The slot start of the open slot that contains the drawn position, in CLAIMING: the claim is
built and PENDING. Any other slot start is announced and builds nothing; with none due nothing happens (R8, R11, R38
to R40, R42, R120, R127). -/
def Obligations.SlotStartBuildsTheFrames : Prop :=
  (∀ (s : State) (k : Slot) (flag : BeaconFlag), s.Awake → s.timer.due = some (.slotStart k) →
    s.member.kind k = .own →
    (s.member.station = .tentative ∧ flag = .tentative ∨ s.member.station = .settled ∧ flag = .settled ∨
      s.member.station = .leaving ∧ flag = .leaving) →
    s.line.tx = .idle →
    let m := State.settleCues { s with timer := { s.timer with due := none } }
    let round := s.timer.clock.round
    let map := garbledMapOf fun j => decide ((s.member.slots[j]).outcome = .garbled ∧
      (s.member.slots[j]).outcomeRound = if j.val < k.val then round else round - 1)
    exec .slotStart s = .next
      { m with
        cues := { m.cues with entries := (selectCarry 3 m.cues.entries).2 }
        line := { m.line with tx := .pending {
            kind := .beacon
            bytes := (Frame.beacon flag s.ownId round k (BitVec.ofNat 8 s.tag.members) s.tag.lowest map
              (selectCarry 3 m.cues.entries).1).bytes
            start := ⟨round, k.val * s.S + 16⟩ } }
        frame := { m.frame with sending := some (.beacon k flag) } }) ∧
  (∀ (s : State) (k : Slot) (c : ClaimInHand), s.Awake → s.timer.due = some (.slotStart k) →
     s.member.kind k ≠ .own → s.member.station = .claiming → s.member.claim = some c →
     c.position.val / 4 = k.val → s.line.tx = .idle →
     exec .slotStart s = .next
       { s with
         timer := { s.timer with due := none }
         line := { s.line with tx := .pending {
             kind := .claim
             bytes := (Frame.claim s.ownId s.timer.clock.round c.position c.target).bytes
             start := ⟨s.timer.clock.round, k.val * s.S + 16 + c.position.val % 4 * (s.S / 4)⟩ } }
         frame := { s.frame with sending := some .claim } }) ∧
  (∀ (s : State) (k : Slot), s.resetting = none → s.timer.due = some (.slotStart k) →
    (s.power.state ≠ .awake ∨ s.member.kind k ≠ .own ∧
      (s.member.station ≠ .claiming ∨ ∀ c, s.member.claim = some c → c.position.val / 4 ≠ k.val)) →
    exec .slotStart s = .next { s with timer := { s.timer with due := none } }) ∧
  (∀ s : State, (∀ k, s.timer.due ≠ some (.slotStart k)) → exec .slotStart s = .next s)

/-- A carry selection takes the first three eligible entries in table order, PENDING or WITHDRAWN with a forward
count below 4 (own) or 2 (others), carries each as CUE or WITHDRAWAL with its content, counts each once more and
leaves every other entry as it is (R128 to R131). -/
def Obligations.CarrySelectionTakesTheFirstThreeEligible : Prop :=
  (∀ e : CueEntry, e.eligible = true ↔
    (e.state = .pending ∨ e.state = .withdrawn) ∧ e.forward < if e.own then 4 else 2) ∧
  (∀ e : CueEntry, e.toItem =
    { kind := if e.state = .withdrawn then .withdrawal else .cue, line := e.line, action := e.action,
      origin := e.origin, seq := e.seq, due := e.due, width := e.width, mask := e.mask }) ∧
  ∀ entries : List CueEntry,
    (selectCarry 3 entries).1 = ((entries.filter CueEntry.eligible).take 3).map CueEntry.toItem ∧
    (selectCarry 3 entries).2.length = entries.length ∧
    ∀ (i : Nat) (e : CueEntry), entries[i]? = some e →
      (selectCarry 3 entries).2[i]? = some
        (if e.eligible = true ∧ ((entries.take i).filter CueEntry.eligible).length < 3
         then { e with forward := e.forward + 1 } else e)

/-- The own cell tag: the SETTLED peers, and this station while SETTLED, counted between 1 and 28, with the lowest
id among them, or the own id where there is none (R67). -/
def Obligations.TheCellTagCountsTheSettled : Prop :=
  ∀ s : State,
    let ids := (s.member.peers.filter fun p => decide (p.state = .settled)).map PeerEntry.id ++
      if s.member.station = .settled then [s.ownId] else []
    (ids.length ≤ 1 → s.tag.members = 1) ∧
    (1 ≤ ids.length → ids.length ≤ 28 → s.tag.members = ids.length) ∧
    (28 ≤ ids.length → s.tag.members = 28) ∧
    (ids = [] → s.tag.lowest = s.ownId) ∧
    (ids ≠ [] → s.tag.lowest ∈ ids) ∧
    ∀ i ∈ ids, s.tag.lowest.toNat ≤ i.toNat

/-! ## Round wrap (chapters 4, 5, 7 and 10) -/

/-- The round wrap sets the full-listen bar from the new round number in every power state; in DOZE and STARTING it
does nothing else. Delivered while AWAKE, it settles what has fallen due and sweeps exactly the RETIRED entries whose
due round lies 3 or more rounds before the new round, and no report is left held. With no wrap due nothing happens
(R11, R120, R124, R150). -/
def Obligations.RoundWrapSetsTheBarAndSweeps : Prop :=
  (∀ s : State, s.resetting = none → s.timer.due = some .roundWrap →
    ∃ t, exec .roundWrap s = .next t ∧ t.timer = { s.timer with due := none } ∧
      t.power = { s.power with fullListenBar := decide (s.timer.clock.round.toNat % 16 = 0) } ∧
      (s.power.state ≠ .awake → t = { s with timer := t.timer, power := t.power }) ∧
      (s.power.state = .awake → t.cues.nextSeq = s.cues.nextSeq ∧ t.firing.reports = [] ∧
        t.cues.entries = s.settleCues.cues.entries.filter fun e =>
          !(e.isRetired && decide (3 ≤ (s.timer.clock.round - e.due.round).toInt)))) ∧
  (∀ s : State, (s.resetting ≠ none ∨ s.timer.due ≠ some .roundWrap) → exec .roundWrap s = .next s)

/-- What holder release makes of slot `k` (R58): OCCUPIED by the first, hence lowest, id of the peers beaconing in it,
else VACANT. The peer table is in ascending order of id (R59). -/
def Sys2Proof.Machine.passedOn (peers : List PeerEntry) (k : Slot) : SlotKind :=
  match peers.find? fun p => p.beaconsIn k with
  | some p => .occupied p.id
  | none => .vacant

/-- Holder release of slot `k`: among the peers reporting it as TENTATIVE, SETTLED or LEAVING, the one giving it up
left out, the lowest id becomes the holder; with none the slot is VACANT. Outcomes and the other slots stay. A peer
that is lost leaves the table, PEER_LOST names its slot and the reason, and only a slot it held passes on (R58, R63,
R64; that a slot with another holder stays is log 11). -/
def Obligations.HolderReleasePassesTheSlotOn : Prop :=
  (∀ (m : Membership) (k : Slot) (giver : Option Byte), m.PeersOk →
    m.release k giver = { m with slots := (m.release k giver).slots } ∧
    (∀ j : Slot, ((m.release k giver).slots[j]).outcome = (m.slots[j]).outcome ∧
      ((m.release k giver).slots[j]).outcomeRound = (m.slots[j]).outcomeRound) ∧
    (∀ j, j ≠ k → (m.release k giver).kind j = m.kind j) ∧
    (∀ p ∈ m.peers, p.slot = some k → p.state ≠ .claimant → some p.id ≠ giver →
      (∀ q ∈ m.peers, q.slot = some k → q.state ≠ .claimant → some q.id ≠ giver → p.id.toNat ≤ q.id.toNat) →
      (m.release k giver).kind k = .occupied p.id) ∧
    ((∀ p ∈ m.peers, p.slot = some k → p.state ≠ .claimant → some p.id = giver) →
      (m.release k giver).kind k = .vacant)) ∧
  (∀ (s : State) (p : PeerEntry) (reason : LostReason), s.member.PeersOk → p ∈ s.member.peers →
    let t := s.losePeer p reason
    t = { s with member := t.member, port := t.port } ∧
    t.member = { s.member with slots := t.member.slots, peers := t.member.peers } ∧
    t.member.peers = s.member.peers.filter (fun q => decide (q ≠ p)) ∧
    t.port = { s.port with
      events := appendEvent s.port.events ⟨.peerLost p.id p.slot reason, s.timer.clock⟩ } ∧
    ∀ j : Slot, t.member.kind j =
      if p.slot = some j ∧ s.member.kind j = .occupied p.id then passedOn t.member.peers j else s.member.kind j)

/-- The peers after the missed counts of a wrap ending `ended` (R63): one more for every peer with a slot that was
listened to in that round, its last round heard being another. -/
def Sys2Proof.Machine.Membership.afterMissing (m : Membership) (ended : Round) : List PeerEntry :=
  m.peers.map fun p =>
    match p.slot with
    | some k =>
      if (m.slots[k]).outcomeRound = ended ∧ (m.slots[k]).outcome ≠ .unheard ∧ p.heard ≠ ended then
        { p with missed := p.missed + 1 }
      else p
    | none => p

/-- At a round wrap now, BACKOFF ends with none remaining, or SURVEY at its end round (R74, R87). -/
abbrev Sys2Proof.Machine.State.WaitEnds (s : State) : Prop :=
  s.member.station = .backoff ∧ s.member.backoff = 0 ∨
    s.member.station = .survey ∧ s.member.surveyEnd = some s.timer.clock.round

/-- A delivered round wrap into `round`, ending r. Slots whose round of last outcome is neither r nor r + 1 become
UNHEARD in r. Missed counts rise by R63; exactly the peers whose count reaches 4 and the CLAIMANTs last heard 3 or more
rounds ago are lost, and the others stay. A CLAIMED slot becomes VACANT when its claim round is 3 or more rounds back;
an OCCUPIED one passes on when its holder is lost, or is in no peer entry and was SILENT in r; all others stay, a
slot that a lost peer reported and another holds too (log 11). PEER_LOST is queued for every peer lost, in ascending
order of id, those of R63 first (log 10); CELL_FULL follows where SURVEY or BACKOFF ends in this wrap with no claimable
slot VACANT (R54, R57, R58, R63, R65, R74, R76, R87). -/
def Obligations.RoundWrapUpdatesTheTables : Prop :=
  ∀ s : State, s.Awake → s.timer.due = some .roundWrap → s.member.PeersOk →
    let round := s.timer.clock.round
    let r := round - 1
    let counted := s.member.afterMissing r
    let old : PeerEntry → Bool := fun p => decide (p.state = .claimant ∧ 3 ≤ (round - p.heard).toInt)
    ∃ t, exec .roundWrap s = .next t ∧
      (∀ k : Slot, ((t.member.slots[k]).outcome, (t.member.slots[k]).outcomeRound) =
        if (s.member.slots[k]).outcomeRound ≠ r ∧ (s.member.slots[k]).outcomeRound ≠ r + 1
        then (.unheard, r)
        else ((s.member.slots[k]).outcome, (s.member.slots[k]).outcomeRound)) ∧
      t.member.peers = (counted.filter fun p => decide (p.missed < 4) && !old p) ∧
      (∀ k : Slot, t.member.kind k =
        match s.member.kind k with
        | .claimed h c => if 3 ≤ (round - c).toInt then .vacant else .claimed h c
        | .occupied h =>
          if s.member.peer? h = none ∧ (s.member.slots[k]).outcome = .silent ∧
                (s.member.slots[k]).outcomeRound = r ∨
              (∃ p ∈ s.member.peers, p.id = h ∧ p.slot = some k) ∧ t.member.peer? h = none
          then passedOn t.member.peers k else .occupied h
        | other => other) ∧
      let lost := ((counted.filter fun p => decide (4 ≤ p.missed)) ++
          (counted.filter fun p => decide (p.missed < 4) && old p)).foldl
        (fun events p => appendEvent events ⟨.peerLost p.id p.slot .silent, s.timer.clock⟩)
        s.settleCues.port.events
      t.port.events =
        if s.WaitEnds ∧ ∀ k : Slot, 4 ≤ k.val → t.member.kind k ≠ .vacant
        then appendEvent lost ⟨.cellFull, s.timer.clock⟩ else lost

/-- A claim in hand: the position that the register's value `v` draws, with a target (R68, R78). -/
def Sys2Proof.Machine.claimDrawn (v : BitVec 16) (target : Slot) : ClaimInHand :=
  { position := ⟨v.toNat % 16, Nat.mod_lt _ (by decide)⟩, target := target }

/-- What an idle transmitter is after the wrap that draws claim `c`: a position in open slot 0 is built at once (R42). -/
def Sys2Proof.Machine.State.claimAtWrap (s : State) (c : ClaimInHand) : Transmitter :=
  if c.position.val < 4 then .pending
    { kind := .claim, bytes := (Frame.claim s.ownId s.timer.clock.round c.position c.target).bytes
      start := ⟨s.timer.clock.round, 16 + c.position.val * (s.S / 4)⟩ }
  else .idle

/-- A delivered round wrap by the station state. CLAIMING: a claim position is drawn and held with the target as the
claim in hand; in open slot 0 the claim is built in the same delivery. BACKOFF with rounds remaining: one is taken off.
BACKOFF with none, or SURVEY at its end round: CLAIMING with a target drawn among the VACANT claimable slots in ascending
order, and then a claim position as before; or, when none is VACANT, BACKOFF with 8 and no draw. TENTATIVE and SETTLED:
the strike record shifts and the own beacon outcome returns to none. A draw is 16 steps of the LFSR, each a shift by one
place to the most significant bit, with the exclusive-or of bits 15, 13, 12 and 10 shifted in (R42, R68, R70, R74, R76,
R78, R82, R87). -/
def Obligations.RoundWrapMovesTheStation : Prop :=
  (∀ (s : State) (target : Slot), s.Awake → s.timer.due = some .roundWrap →
    s.member.station = .claiming → s.member.target = some target → s.line.tx = .idle →
    let v := lfsrDraw s.member.lfsr
    ∃ t, exec .roundWrap s = .next t ∧ t.member.station = .claiming ∧ t.member.target = some target ∧
      t.member.lfsr = v ∧ t.member.claim = some (claimDrawn v target) ∧
      t.member.tries = s.member.tries ∧ t.line.tx = s.claimAtWrap (claimDrawn v target)) ∧
  (∀ s : State, s.Awake → s.timer.due = some .roundWrap →
    ∃ t, exec .roundWrap s = .next t ∧
      (∀ n, s.member.station = .backoff → s.member.backoff = n + 1 →
        t.member.station = .backoff ∧ t.member.backoff = n ∧ t.member.lfsr = s.member.lfsr) ∧
      (s.WaitEnds →
        let vacant := (List.finRange 32).filter fun k : Slot => decide (4 ≤ k.val ∧ t.member.kind k = .vacant)
        let v := lfsrDraw s.member.lfsr
        let w := lfsrDraw v
        (∀ k, vacant[v.toNat % vacant.length]? = some k →
          t.member.station = .claiming ∧ t.member.tries = 0 ∧ t.member.target = some k ∧ t.member.lfsr = w ∧
          t.member.claim = some (claimDrawn w k) ∧
          (s.line.tx = .idle → t.line.tx = s.claimAtWrap (claimDrawn w k))) ∧
        (vacant = [] →
          t.member.station = .backoff ∧ t.member.backoff = 8 ∧ t.member.lfsr = s.member.lfsr)) ∧
      (s.member.station = .tentative ∨ s.member.station = .settled →
        t.member.station = s.member.station ∧ t.member.strikeBefore = s.member.strikeNow ∧
        t.member.strikeNow = false ∧ t.member.ownOutcome = none ∧ t.member.ownSlot = s.member.ownSlot)) ∧
  (∀ v : BitVec 16, lfsrDraw v = lfsrStep^[16] v) ∧
  (∀ v : BitVec 16,
    (lfsrStep v).getLsbD 0 = (v.getLsbD 15 ^^ v.getLsbD 13 ^^ v.getLsbD 12 ^^ v.getLsbD 10) ∧
    ∀ i : Fin 15, (lfsrStep v).getLsbD (i.val + 1) = v.getLsbD i.val) ∧
  ∀ m : Membership,
    m.vacant = (List.finRange 32).filter fun k : Slot => decide (4 ≤ k.val ∧ m.kind k = .vacant)

/-! ## What several statements say alike -/

/-- From `s` to `t` the station has entered READY (R33, R50, R69, R91, R97, R125, R147): line and frame unit are
cut off, the tables reset with the current round, the items of R70 and the candidate discarded, the LFSR kept, the
cue table emptied, the next sequence number kept, no report held, the action lines IDLE. -/
def Sys2Proof.Machine.State.EntersReady (s t : State) : Prop :=
  t.line = { s.line with tx := .idle, rx := .disarmed, window := none } ∧
  t.frame = FrameUnit.reset ∧
  t.member = { Membership.reset with
    station := .ready, slots := slotTableReset s.timer.clock.round, lfsr := s.member.lfsr } ∧
  t.cues = { entries := [], nextSeq := s.cues.nextSeq } ∧
  t.firing.reports = [] ∧
  (∀ n : Fin 4, t.firing.lines[n] = { s.firing.lines[n] with state := .idle, ending := false }) ∧
  t.power = { s.power with wake := none } ∧
  t.port.config = s.port.config ∧ t.port.locked = s.port.locked ∧ t.port.taken = s.port.taken

/-- The state with a frame of this kind, if the line unit holds one PENDING, withdrawn (R41, R77). -/
def Sys2Proof.Machine.State.unframed (s : State) (kind : FrameKind) : State :=
  let held : Bool := match s.line.tx with
    | .pending f => decide (f.kind = kind)
    | .idle | .sending _ _ _ => false
  { s with
    line := { s.line with tx := if held then .idle else s.line.tx }
    frame := { s.frame with sending := if held then none else s.frame.sending } }

/-- The line unit outside SURVEY, armed by its window alone: a receiver that is neither RECEIVING nor in ECHO is ARMED
while a window is open, with the candidates it had, and else DISARMED (R19, R20). -/
def Sys2Proof.Machine.LineUnit.byWindow (l : LineUnit) : LineUnit :=
  { l with rx := match l.rx with
    | .disarmed => if l.window ≠ none then .armed [] else .disarmed
    | .armed candidates => if l.window ≠ none then .armed candidates else .disarmed
    | .receiving r => .receiving r
    | .echo => .echo }

/-- From `s` to `t` the station has entered CLAIMING with a target drawn among the VACANT claimable slots in
ascending order, or, with none VACANT, CELL_FULL is queued and BACKOFF entered with 8 remaining; the receiver is armed by
its window (R19, R68, R76). -/
def Sys2Proof.Machine.State.EntersClaiming (s t : State) : Prop :=
  t = { s with member := t.member, port := t.port, line := s.line.byWindow } ∧
  ((∃ k, s.member.vacant[(lfsrDraw s.member.lfsr).toNat % s.member.vacant.length]? = some k ∧
    4 ≤ k.val ∧ s.member.kind k = .vacant ∧
    t.member = { s.member.clearItems with
      station := .claiming, lfsr := lfsrDraw s.member.lfsr, target := some k } ∧
    t.port = s.port) ∨
  ((∀ k : Slot, 4 ≤ k.val → s.member.kind k ≠ .vacant) ∧
    t.member = { s.member.clearItems with station := .backoff, backoff := 8 } ∧
    t.port = { s.port with events := appendEvent s.port.events ⟨.cellFull, s.timer.clock⟩ }))

/-- From `s` to `t` the station has yielded its own slot `k` (R58, R68, R86): the slot goes to the lowest id among
the peers reporting it, else VACANT; YIELDED is queued; the items are discarded and BACKOFF is entered with a drawn
length from 1 to 8; a beacon still PENDING is withdrawn, the receiver is armed by its window, and the rest of the line unit
stays (R19, R41). -/
def Sys2Proof.Machine.State.Yields (s t : State) (k : Slot) : Prop :=
  t.member.kind k = passedOn s.member.peers k ∧
  (∀ j, j ≠ k → t.member.kind j = s.member.kind j) ∧
  t.member = { s.member.clearItems with
    slots := t.member.slots, station := .backoff, lfsr := lfsrDraw s.member.lfsr
    backoff := 1 + (lfsrDraw s.member.lfsr).toNat % 8 } ∧
  t.port = { s.port with events := appendEvent s.port.events ⟨.yielded k, s.timer.clock⟩ } ∧
  t.line = (s.unframed .beacon).line.byWindow ∧ t.frame.sending = (s.unframed .beacon).frame.sending

/-- A target's entry that is given up: OCCUPIED, or CLAIMED by a lower id than the own (R77, R79, R80). -/
def Sys2Proof.Machine.SlotKind.Lost (own : Byte) (kind : SlotKind) : Prop :=
  (∃ h, kind = .occupied h) ∨ ∃ h c, kind = .claimed h c ∧ h.toNat < own.toNat

/-- From `s` to `t` the target is given up and another drawn among the VACANT claimable slots in ascending order, no try
being counted; with none VACANT, CELL_FULL is queued and BACKOFF entered with 8 remaining, the receiver armed by its window;
a claim still PENDING is withdrawn, and the rest of the line unit stays (R19, R68, R77). -/
def Sys2Proof.Machine.State.Redraws (s t : State) : Prop :=
  ((∃ k, s.member.vacant[(lfsrDraw s.member.lfsr).toNat % s.member.vacant.length]? = some k ∧
      4 ≤ k.val ∧ s.member.kind k = .vacant ∧
      t.member = { s.member with target := some k, claim := none, lfsr := lfsrDraw s.member.lfsr } ∧
      t.port = s.port ∧ t.line = (s.unframed .claim).line) ∨
    ((∀ k : Slot, 4 ≤ k.val → s.member.kind k ≠ .vacant) ∧
      t.member = { s.member.clearItems with station := .backoff, backoff := 8 } ∧
      t.port = { s.port with events := appendEvent s.port.events ⟨.cellFull, s.timer.clock⟩ } ∧
      t.line = (s.unframed .claim).line.byWindow)) ∧
  t.frame.sending = (s.unframed .claim).frame.sending

/-- From `s` to `t`: in CLAIMING a target found lost in `s` is redrawn unless the own claim is SENDING; else
membership, port and line unit stay (R77). -/
def Sys2Proof.Machine.State.WatchesTarget (s t : State) : Prop :=
  (∀ k, s.member.station = .claiming → s.member.target = some k → (s.member.kind k).Lost s.ownId →
    s.line.tx.sendingKind .claim = false → State.Redraws s t) ∧
  ((s.member.station ≠ .claiming ∨ s.line.tx.sendingKind .claim = true ∨
      ∀ k, s.member.target = some k → ¬ (s.member.kind k).Lost s.ownId) →
    t.member = s.member ∧ t.port = s.port ∧ t.line = s.line ∧ t.frame.sending = s.frame.sending)

/-- The decision of R101, by its table. -/
def Sys2Proof.Machine.DecidesToMove (own : CellTag) (ownId : Byte) (c : Candidate) : Prop :=
  own.members < c.members.toNat ∨
  c.members.toNat = own.members ∧
    (c.lowest.toNat < own.lowest.toNat ∨
     c.lowest = own.lowest ∧ (1 ≤ c.lead ∨ c.lead = 0 ∧ c.sender.toNat < ownId.toNat))

/-! ## Seam point (chapters 1, 5, 6 and 9) -/

/-- The correction: none without samples; else minus the mean rounded toward zero, one largest and one smallest set
aside from four or more, clamped to −8 to +8; the order of the samples does not matter. The samples: one for the closed
round is discarded; one for another list round empties the list first; one of a held id replaces its offset; a new one
is appended while fewer than 28 are held, and is else discarded (R93, R95). -/
def Obligations.SamplesGiveTheCorrection : Prop :=
  (correctionOf [] = 0 ∧
  (∀ l : List Int, 1 ≤ l.length → l.length ≤ 3 →
    correctionOf l = max (-8) (min 8 (-(l.sum.tdiv l.length)))) ∧
  (∀ (l : List Int) (hi lo : Int), 4 ≤ l.length → hi ∈ l → lo ∈ l →
    (∀ x ∈ l, x ≤ hi) → (∀ x ∈ l, lo ≤ x) →
    correctionOf l = max (-8) (min 8 (-((l.sum - hi - lo).tdiv ((l.length : Int) - 2))))) ∧
  (∀ l m : List Int, l.Perm m → correctionOf l = correctionOf m)) ∧
  ∀ (u : SyncUnit) (id : Byte) (offset : Int) (round : Round),
    (u.closedRound = some round → u.take id offset round = u) ∧
    (u.closedRound ≠ some round → u.listRound ≠ some round →
      u.take id offset round = { u with
        listRound := some round, samples := [{ id := id, offset := offset }] }) ∧
    (u.closedRound ≠ some round → u.listRound = some round →
      u.take id offset round = { u with
        samples := if ∃ x ∈ u.samples, x.id = id then
          u.samples.map (fun x => if x.id = id then { x with offset := offset } else x)
        else if u.samples.length < 28 then u.samples ++ [{ id := id, offset := offset }]
        else u.samples })

/-- The correction of the samples of the present round (R94, R95). -/
def Sys2Proof.Machine.State.seamCorrection (s : State) : Int :=
  correctionOf (if s.sync.listRound = some s.timer.clock.round then s.sync.samples.map Sample.offset else [])

/-- An arrival instant after a correction of the clock by `c`; 0 is no move (R12, R30). -/
def Sys2Proof.Machine.State.movedBy (s : State) (c : Int) (arrival : Instant) : Instant :=
  if c = 0 then arrival else instantAdd s.L arrival c

/-- SEAM_POINT, in either order of the two units, AWAKE in the five states that compute a correction, unless the
membership controller acts first and moves the station: the phase becomes L−64+c, the seam record the round, and, but
for a move to READY, the last correction c and the closed round the round, with the samples emptied, and the arrival of a
reception in progress is moved by c; samples of another list round count for nothing. In SURVEY, READY and UNCONFIGURED the samples are emptied and the round closed, in DOZE
and STARTING nothing reaches the two units; the clock stays. With no seam point due nothing happens (R10 to R12, R30,
R94, R96, R98). -/
def Obligations.SeamPointCorrectsTheClock : Prop :=
  (∀ (b : Bool) (s : State), s.Awake → s.seamDue = true → s.member.station.inCell = true →
     (b = true ∨ ∀ cand, s.member.candidate = some cand → ¬ DecidesToMove s.tag s.ownId cand) →
     let c := s.seamCorrection
     ∃ t, exec (.seamPoint b) s = .next t ∧
       t.timer.clock.round = s.timer.clock.round ∧ (t.timer.clock.phase : Int) = (s.L : Int) - 64 + c ∧
       t.timer.seamRecord = some s.timer.clock.round ∧ t.timer.lengthCode = s.timer.lengthCode ∧
       (c = 0 → t.timer.counted = true) ∧ (c ≠ 0 → t.timer.counted = false) ∧
       (s.member.station ≠ .leaving ∨
           (∀ cand, s.member.candidate = some cand → ¬ DecidesToMove s.tag s.ownId cand) →
         t.sync = { samples := [], listRound := none, closedRound := some s.timer.clock.round
                    lastCorrection := c } ∧
         ∀ r, s.line.rx = .receiving r → t.line.rx = .receiving { r with arrival := s.movedBy c r.arrival })) ∧
  (∀ (b : Bool) (s : State), s.Awake → s.seamDue = true → s.member.station.inCell = false →
    ∃ t, exec (.seamPoint b) s = .next t ∧
      t.timer = { s.timer with seamRecord := some s.timer.clock.round } ∧ t.member = s.member ∧
      t.sync = { s.sync with
        samples := [], listRound := none, closedRound := some s.timer.clock.round }) ∧
  (∀ (b : Bool) (s : State), s.resetting = none → s.power.state ≠ .awake → s.seamDue = true →
    ∃ t, exec (.seamPoint b) s = .next t ∧
      t.timer = { s.timer with seamRecord := some s.timer.clock.round } ∧ t.member = s.member ∧
      t.sync = s.sync ∧ t.cues = s.cues) ∧
  (∀ (b : Bool) (s : State), s.seamDue = false → exec (.seamPoint b) s = .next s)

/-- The watched entries due after L−64 and not later than L−64+c, in table order (R139, R144). -/
def Sys2Proof.Machine.State.skippedBy (s : State) (c : Int) : List CueEntry :=
  s.watched.filter fun e =>
    decide (0 < instantDiff s.L e.due ⟨s.timer.clock.round, s.L - 64⟩ ∧
      instantDiff s.L e.due ⟨s.timer.clock.round, ((s.L : Int) - 64 + c).toNat⟩ ≤ 0)

/-- From `s` to `t` the firing unit has dealt with the entries a correction by `c` passes over: each is reported in
table order, with its distance from L−64+c as lateness, and the actions of the FIRED ones reach their lines in that order
(R140, R141, R143, R144). -/
def Sys2Proof.Machine.State.FiresSkipped (s t : State) (c : Int) : Prop :=
  let after : Instant := ⟨s.timer.clock.round, ((s.L : Int) - 64 + c).toNat⟩
  let fires : CueEntry → Bool := fun e => decide (e.state = .pending) && s.inGroup e.mask
  t.firing.reports = s.firing.reports ++ (s.skippedBy c).map (fun e =>
    { origin := e.origin, seq := e.seq
      outcome := if e.state = .withdrawn then .withdrawn else if fires e then .fired else .skipped
      lateness := (instantDiff s.L after e.due).toNat }) ∧
  ∀ n : Fin 4, t.firing.lines[n] = { s.firing.lines[n] with
    state := ((s.skippedBy c).filter fun e => fires e && decide (e.line = n)).foldl
      (fun l e => applyAction e.action e.width.toNat l) (s.firing.lines[n]).state }

/-- A forward correction deals with every watched entry due after L−64 and not later than L−64+c, in table order, with
its lateness from 0 to 7, and a backward one with none. So does SEAM_POINT in either order of the two units, where the
sync unit corrects, with the entries that are left once the pulses of this LF period have ended and what is due at L−64
has fallen due; the cue table stays. Left out: a move, which has no correction with the membership controller first, and
from LEAVING ends in READY, with every report recorded and every line IDLE (R98, R140, R141, R143, R144). -/
def Obligations.CorrectionFiresTheSkippedSpan : Prop :=
  (∀ (s : State) (c : Int), s.timer.clock.phase = s.L - 64 → -8 ≤ c → c ≤ 8 →
    (s.correct c).timer.clock = ⟨s.timer.clock.round, ((s.L : Int) - 64 + c).toNat⟩ ∧
    s.FiresSkipped (s.correct c) c ∧
    (∀ e ∈ s.skippedBy c,
      (instantDiff s.L ⟨s.timer.clock.round, ((s.L : Int) - 64 + c).toNat⟩ e.due).toNat ≤ 7) ∧
    (c ≤ 0 → s.skippedBy c = [])) ∧
  ∀ (b : Bool) (s : State), s.Awake → s.seamDue = true → s.member.station.inCell = true →
    (b = true ∧ s.member.station ≠ .leaving ∨
      ∀ cand, s.member.candidate = some cand → ¬ DecidesToMove s.tag s.ownId cand) →
    ∃ m t, runRows [.pulseEnd 0, .pulseEnd 1, .pulseEnd 2, .pulseEnd 3, .cueFallsDue] s = .next m ∧
      exec (.seamPoint b) s = .next t ∧ m.FiresSkipped t s.seamCorrection ∧ t.cues = s.cues

/-- SEAM_POINT with a candidate that R101 decides for. From CLAIMING, TENTATIVE, SETTLED and BACKOFF the station goes
to SURVEY with reset tables, its cue table and LFSR kept, and CELL_MOVED queued; from LEAVING it enters READY and queues
LEFT. With the sync unit first the clock, the record of the event and the arrival of a reception in progress are those
after its correction; with the membership controller first there is no correction and the last correction stays (R30,
R89, R97, R98, R101 to R104). -/
def Obligations.SeamPointMovesTheStation : Prop :=
  ∀ (b : Bool) (s : State) (cand : Candidate), s.Awake → s.seamDue = true → s.member.station.inCell = true →
    s.member.candidate = some cand → DecidesToMove s.tag s.ownId cand →
    ∃ t, exec (.seamPoint b) s = .next t ∧ (b = false → t.timer.clock = s.timer.clock) ∧
      t.timer.seamRecord = some s.timer.clock.round ∧ t.sync.samples = [] ∧ t.sync.listRound = none ∧
      (s.member.station ≠ .leaving →
        t.member = { Membership.reset with
          station := .survey, slots := slotTableReset s.timer.clock.round, lfsr := s.member.lfsr
          surveyEntry := some t.timer.clock } ∧
        t.cues = s.cues ∧ t.frame = s.frame ∧ t.line.tx = s.line.tx ∧ t.line.window = none ∧
        (∀ r, s.line.rx = .receiving r → t.line.rx = .receiving
          { r with arrival := if b then s.movedBy s.seamCorrection r.arrival else r.arrival }) ∧
        (∀ candidates, s.line.rx = .armed candidates → t.line.rx = .armed candidates) ∧
        (s.line.rx = .disarmed → t.line.rx = .armed []) ∧
        t.sync.closedRound = some s.timer.clock.round ∧
        t.sync.lastCorrection = (if b then s.seamCorrection else s.sync.lastCorrection) ∧
        t.port = { s.port with
          events := appendEvent s.port.events ⟨.cellMoved cand.members cand.lowest, t.timer.clock⟩ }) ∧
      (s.member.station = .leaving →
        State.EntersReady s t ∧ t.sync.lastCorrection = 0 ∧
        t.port.events =
          appendEvent (if b then s.seamArrival.syncSeam else s.seamArrival).settleCues.port.events
            ⟨.left, t.timer.clock⟩)

/-- SEAM_POINT with a decision to stay, in either order of the two units: in TENTATIVE a strike-free round counts, and
the second makes the station SETTLED with JOINED queued; in SETTLED two strike flags make it yield; otherwise only the
candidate is emptied. An event carries the clock after the correction where the sync unit acts first, else the one
before it; the yield finds slot 0's window open where it is planned, and an arrival moved in either order (R30, R84, R85,
R98, R101). -/
def Obligations.SeamPointTestsTheStation : Prop :=
  ∀ (b : Bool) (s : State) (k : Slot), s.Awake → s.seamDue = true →
    s.member.station.inCell = true →
    (∀ c, s.member.candidate = some c → ¬ DecidesToMove s.tag s.ownId c) →
    ∃ t, exec (.seamPoint b) s = .next t ∧
      (s.member.station = .tentative → s.member.ownSlot = some k →
        s.member.ownOutcome = some .sent → s.member.strikeNow = false →
        (s.member.cleanRounds = 0 →
          t.member = { s.member with candidate := none, cleanRounds := 1 } ∧ t.port = s.port) ∧
        (s.member.cleanRounds = 1 →
          t.member = { s.member with
            candidate := none, cleanRounds := 0, claimRound := none, station := .settled } ∧
          t.port = { s.port with
            events := appendEvent s.port.events ⟨.joined k, if b then t.timer.clock else s.timer.clock⟩ })) ∧
      (s.member.station = .settled → s.member.ownSlot = some k →
        s.member.strikeNow = true → s.member.strikeBefore = true →
        ∃ m u : State, exec .listenWindowOpen s = .next m ∧
          u.member = { s.member with candidate := none } ∧ u.port = s.port ∧
          u.timer.clock = (if b then t.timer.clock else s.timer.clock) ∧ u.frame = s.frame ∧
          u.line = { m.line with rx := match m.line.rx with
            | .receiving r => .receiving { r with arrival := s.movedBy s.seamCorrection r.arrival }
            | rx => rx } ∧
          State.Yields u t k) ∧
      (s.member.station = .claiming ∨ s.member.station = .backoff ∨ s.member.station = .leaving ∨
        s.member.station = .tentative ∧
          (s.member.ownOutcome ≠ some .sent ∨ s.member.strikeNow = true) ∨
        s.member.station = .settled ∧ (s.member.strikeNow = false ∨ s.member.strikeBefore = false) →
        t.member = { s.member with candidate := none } ∧ t.port = s.port)

/-- A survey without an alignment founds a cell when the clock reaches its entry plus 2×L: FOUNDED is queued and
CLAIMING entered, and nothing else changes; before that, after an alignment or outside SURVEY nothing happens. That an
ARMED receiver goes to DISARMED at the founding and no window opens late, where none is open, is log 13 (R19, R20, R68,
R75, R76). -/
def Obligations.SurveyFoundsAtTheDeadline : Prop :=
  (∀ (s : State) (entry : Instant), s.Awake → s.member.station = .survey →
    s.member.surveyEntry = some entry → s.member.surveyEnd = none →
    2 * (s.L : Int) ≤ instantDiff s.L s.timer.clock entry →
    ∃ t, exec .surveyFounding s = .next t ∧
      State.EntersClaiming
        { s with port := { s.port with
            events := appendEvent s.port.events ⟨.founded, s.timer.clock⟩ } } t) ∧
  (∀ s : State, (s.member.station ≠ .survey ∨ s.member.surveyEnd ≠ none ∨
      ∀ entry, s.member.surveyEntry = some entry →
        instantDiff s.L s.timer.clock entry < 2 * (s.L : Int)) →
    exec .surveyFounding s = .next s)

/-! ## Line unit (chapters 2, 4 and 5) -/

/-- A planned window opens when the clock reaches its opening phase by counting, 64 PU before the slot start, the
receiver going to ARMED unless RECEIVING or in ECHO: in a full-listen round every slot is planned, else those that are
not VACANT. At any other phase, for a slot that is not planned, with a window open, the HF domain not AWAKE, outside
the five states with a plan, or after a move, none opens (R19, R20, R66). -/
def Obligations.ListenWindowOpensByThePlan : Prop :=
  (∀ (s : State) (k : Slot), s.Awake → s.member.station.inCell = true → s.timer.counted = true →
    s.line.window = none →
    s.timer.clock.phase = (if k.val = 0 then s.L - 64 else k.val * s.S - 64) →
    let round := if k.val = 0 then s.timer.clock.round + 1 else s.timer.clock.round
    ((round.toNat % 16 = 0 ∨ s.member.kind k ≠ .vacant) →
      exec .listenWindowOpen s = .next
        { s with line := { s.line with
            window := some { slot := k, round := round, marker := false, transmitted := false }
            rx := match s.line.rx with
              | .disarmed => .armed []
              | other => other } }) ∧
    (round.toNat % 16 ≠ 0 → s.member.kind k = .vacant → exec .listenWindowOpen s = .next s)) ∧
  (∀ s : State, (s.resetting ≠ none ∨ s.power.state ≠ .awake ∨ s.member.station.inCell = false ∨
      s.timer.counted = false ∨ s.line.window ≠ none ∨
      ∀ k : Slot, s.timer.clock.phase ≠ if k.val = 0 then s.L - 64 else k.val * s.S - 64) →
    exec .listenWindowOpen s = .next s)

/-- A window closes at its close phase, reached by counting: an ARMED receiver goes to DISARMED, a reception goes
on. With a marker or an own transmission in it nothing else changes; else the report is NO_MARKER, also while an
earlier reception goes on (log 30): SILENT is recorded for its slot and listening round, every LEAVING peer of the slot
is lost with PEER_LOST (LEFT) in ascending order of id (log 32), and the slot passes on where one of them held it and
stays where another holds it (log 11). At any other phase it stays open. Left out: SURVEY, in which no window is open (R20, R24, R53, R58, R64). -/
def Obligations.WindowClosesWithItsReport : Prop :=
  (∀ (s : State) (w : Window), s.Awake → s.member.station ≠ .survey → s.timer.counted = true →
    s.line.window = some w →
    s.timer.clock.phase =
      (if w.slot.val < 4 then w.slot.val * s.S + 3 * (s.S / 4) + 53 else w.slot.val * s.S + 53) →
    let leaves : PeerEntry → Bool := fun p => decide (p.state = .leaving ∧ p.slot = some w.slot)
    ∃ t, exec .windowClose s = .next t ∧
      t.line = { s.line with
        window := none
        rx := match s.line.rx with
          | .armed _ => .disarmed
          | other => other } ∧
      (w.marker = true ∨ w.transmitted = true → t = { s with line := t.line }) ∧
      (w.marker = false → w.transmitted = false → s.member.PeersOk →
        t = { s with line := t.line, member := t.member, port := t.port } ∧
        t.member = { s.member with slots := t.member.slots, peers := t.member.peers } ∧
        t.member.peers = s.member.peers.filter (fun p => !leaves p) ∧
        t.port = { s.port with
          events := (s.member.peers.filter leaves).foldl (fun events p =>
            appendEvent events ⟨.peerLost p.id (some w.slot) .left, s.timer.clock⟩) s.port.events } ∧
        (∀ j : Slot, ((t.member.slots[j]).outcome, (t.member.slots[j]).outcomeRound) =
          if j = w.slot ∧ (s.member.slots[j]).outcomeRound ≠ w.round then (.silent, w.round)
          else if j = w.slot ∧ (s.member.slots[j]).outcome = .unheard then (.silent, w.round)
          else ((s.member.slots[j]).outcome, (s.member.slots[j]).outcomeRound)) ∧
        (∀ j : Slot, t.member.kind j =
          if j = w.slot ∧ ∃ p ∈ s.member.peers, leaves p = true ∧ s.member.kind j = .occupied p.id
          then passedOn t.member.peers j else s.member.kind j))) ∧
  (∀ (s : State) (w : Window), s.line.window = some w →
    (s.power.state ≠ .awake ∨ s.timer.counted = false ∨
      s.timer.clock.phase ≠
        if w.slot.val < 4 then w.slot.val * s.S + 3 * (s.S / 4) + 53 else w.slot.val * s.S + 53) →
    exec .windowClose s = .next s) ∧
  (∀ s : State, s.line.window = none → exec .windowClose s = .next s)

/-- A half-cell carries a burst when IRRX, low while carrier is present, is low for at least half of its ten
microseconds (R17, R176): `before` of them low in what has passed, and those low in `rest`. -/
def Sys2Proof.Machine.halfShows (before : Nat) (rest : List Bool) : Bool := decide (5 ≤ before + rest.count false)

/-- A frame is emitted as the marker's eight cells, then for each bit of its bytes, most significant first, a burst in the
first half for a 1 and in the second for a 0. While SENDING each half is checked as it ends, through the rest of IRRX:
where it shows what was emitted the check goes on with the next half, at the first one that does not, COLLIDED comes
about at once. The four halves of the closing silence are not checked, and at the end of the last SENT comes about. What
has passed of a half that this LF period does not end stays counted for the next (R17, R18, R26, R27; logs 5, 25). -/
def Obligations.EchoIsCheckedHalfByHalf : Prop :=
  (∀ bytes : List Byte, emissionHalves bytes =
    [true, true, true, true, true, false, false, true, true, false, false, true, true, false, false, true] ++
    bytes.flatMap fun b => [b.getLsbD 7, !b.getLsbD 7, b.getLsbD 6, !b.getLsbD 6, b.getLsbD 5, !b.getLsbD 5,
      b.getLsbD 4, !b.getLsbD 4, b.getLsbD 3, !b.getLsbD 3, b.getLsbD 2, !b.getLsbD 2, b.getLsbD 1, !b.getLsbD 1,
      b.getLsbD 0, !b.getLsbD 0]) ∧
  (∀ (l : LineUnit) (f : OutFrame) (n seen carrier : Nat) (half rest : List Bool), seen < 10 →
    l.tx = .sending f n { seen := seen, carrier := carrier } → l.wave = half ++ rest →
    (seen + l.wave.length < 10 → l.next = none) ∧
    (seen + half.length = 10 →
      let after : LineUnit :=
        { l with tx := .sending f (n + 1) { seen := 0, carrier := 0 }, wave := rest
                 irrx := half.getLast?.getD l.irrx }
      match (emissionHalves f.bytes)[n]? with
      | some emitted =>
        l.next = if halfShows carrier half = emitted then after.next else some (after, .collided)
      | none =>
        l.next = if n + 1 < (emissionHalves f.bytes).length + 4 then after.next else some (after, .sent))) ∧
  ∀ (s : State) (f : OutFrame) (n seen carrier : Nat) (half rest : List Bool), s.Awake → seen < 10 →
    s.line.tx = .sending f n { seen := seen, carrier := carrier } → s.line.wave = half ++ rest →
    (seen + s.line.wave.length < 10 → s.runWave = { s with line := { s.line with
      tx := .sending f n { seen := seen + s.line.wave.length, carrier := carrier + s.line.wave.count false }
      wave := [], irrx := s.line.wave.getLast?.getD s.line.irrx } }) ∧
    (seen + half.length = 10 →
      (match (emissionHalves f.bytes)[n]? with
        | some emitted => halfShows carrier half = emitted
        | none => n + 1 < (emissionHalves f.bytes).length + 4) →
      s.runWave = State.runWave { s with line := { s.line with
        tx := .sending f (n + 1) { seen := 0, carrier := 0 }, wave := rest
        irrx := half.getLast?.getD s.line.irrx } })

/-- The receiver along IRRX. A RECEIVING one judges half by half and decodes each cell: a 1 or 0 joins the partial byte
and a full byte the list, a double cell damages, one silent cell is held back, a second is the frame end, which bits left
over damage; another cell after a held one damages, and a 49th byte is not kept and ends the reception DAMAGED. An ARMED
one watches every candidate: each change from no carrier to carrier begins one, a half that is not the marker's ends it,
and the sixteenth half brings about the marker. A DISARMED one and one in ECHO see nothing. What has passed of a half that
this LF period does not end stays counted for the next (R17, R18, R21 to R23; logs 5, 25). -/
def Obligations.TheReceiverDecodesCellByCell : Prop :=
  (∀ (l : LineUnit) (r : Reception) (seen carrier : Nat) (half rest : List Bool), seen < 10 →
    l.tx.sendingKind .beacon = false → l.tx.sendingKind .claim = false → l.rx = .receiving r →
    r.half = { seen := seen, carrier := carrier } → l.wave = half ++ rest →
    (seen + l.wave.length < 10 → l.next = none) ∧
    (seen + half.length = 10 →
      let after : Reception → LineUnit := fun r =>
        { l with rx := .receiving r, wave := rest, irrx := half.getLast?.getD l.irrx }
      let shown := halfShows carrier half
      let fresh : Reception := { r with half := { seen := 0, carrier := 0 }, first := none }
      match r.first with
      | none => l.next = (after { fresh with first := some shown }).next
      | some first =>
        let decoded := fresh.takeCell (Cell.ofHalves first shown)
        l.next = if decoded.2 then some (after decoded.1, .receptionEnd) else (after decoded.1).next)) ∧
  (∀ r : Reception, r.part.length < 8 →
    let loose : Reception := { r with silentHeld := false, damaged := r.damaged || r.silentHeld }
    (∀ b : Bool, r.takeCell (Cell.ofHalves b (!b)) =
      if r.part.length < 7 then ({ loose with part := r.part ++ [b] }, false)
      else if r.bytes.length < 48 then
        ({ loose with part := [], bytes := r.bytes ++ [bitsByte (r.part ++ [b])] }, false)
      else ({ loose with part := [], damaged := true }, true)) ∧
    r.takeCell (Cell.ofHalves true true) = ({ loose with damaged := true }, false) ∧
    r.takeCell (Cell.ofHalves false false) =
      if r.silentHeld then ({ r with part := [], damaged := r.damaged || decide (r.part ≠ []) }, true)
      else ({ r with silentHeld := true }, false)) ∧
  (∀ (l : LineUnit) (level : Bool), l.tx.sendingKind .beacon = false → l.tx.sendingKind .claim = false →
    (∀ candidates, l.rx = .armed candidates →
      let begun : List MarkerCandidate :=
        if l.irrx = true ∧ level = false then [{ halves := 0, half := { seen := 1, carrier := 1 } }] else []
      let live := candidates.filterMap (fun c => c.take (!level)) ++ begun
      l.sample level = ({ l with irrx := level, rx := .armed live },
        if ∃ c ∈ live, c.halves = 16 then some .marker else none)) ∧
    (l.rx = .disarmed ∨ l.rx = .echo → l.sample level = ({ l with irrx := level }, none))) ∧
  (∀ (n seen carrier : Nat) (half : List Bool), seen < 10 → n < 16 →
    let candidate : MarkerCandidate := { halves := n, half := { seen := seen, carrier := carrier } }
    let passed := half.foldl (fun c level => c.bind fun c => c.take (!level)) (some candidate)
    (seen + half.length < 10 → passed = some
      { candidate with half := { seen := seen + half.length, carrier := carrier + half.count false } }) ∧
    (seen + half.length = 10 → passed =
      if (emissionHalves [])[n]? = some (halfShows carrier half)
      then some { halves := n + 1, half := { seen := 0, carrier := 0 } } else none)) ∧
  (∀ (s : State) (r : Reception) (seen carrier : Nat) (half rest : List Bool), s.Awake → seen < 10 →
    s.line.tx.sendingKind .beacon = false → s.line.tx.sendingKind .claim = false → s.line.rx = .receiving r →
    r.half = { seen := seen, carrier := carrier } → s.line.wave = half ++ rest →
    (seen + s.line.wave.length < 10 → s.runWave = { s with line := { s.line with
      rx := .receiving { r with
        half := { seen := seen + s.line.wave.length, carrier := carrier + s.line.wave.count false } }
      wave := [], irrx := s.line.wave.getLast?.getD s.line.irrx } }) ∧
    (seen + half.length = 10 →
      let goesOn : Reception → Prop := fun q => s.runWave = State.runWave { s with line := { s.line with
        rx := .receiving q, wave := rest, irrx := half.getLast?.getD s.line.irrx } }
      let fresh : Reception := { r with half := { seen := 0, carrier := 0 }, first := none }
      match r.first with
      | none => goesOn { fresh with first := some (halfShows carrier half) }
      | some first =>
        (fresh.takeCell (Cell.ofHalves first (halfShows carrier half))).2 = false →
        goesOn (fresh.takeCell (Cell.ofHalves first (halfShows carrier half))).1)) ∧
  (∀ (s : State) (level : Bool) (rest : List Bool), s.Awake → s.line.wave = level :: rest →
    match ({ s.line with wave := rest } : LineUnit).sample level with
    | (l, some event) => s.line.next = some (l, event)
    | (l, none) => s.line.next = l.next ∧ s.runWave = State.runWave { s with line := l }) ∧
  (∀ s : State, s.line.wave = [] → s.line.next = none ∧ s.runWave = s)

/-- Where the next thing to come about on IRRX in this LF period is a marker, an ARMED receiver has recognised it: a
reception begins, attributed to the open window's slot or else to the slot of the arrival phase. Where it is the end of
the reception, that is handed to the frame unit, COMPLETE or DAMAGED, and the receiver is ARMED while a window is open or
in SURVEY, else DISARMED. Where it is not, the row changes nothing (R18, R21, R23; log 25). -/
def Obligations.ReceptionsBeginAndEnd : Prop :=
  (∀ (s : State) (l : LineUnit), s.Awake → s.line.next = some (l, .marker) →
    (∃ candidates, l.rx = .armed candidates) ∧
    exec (.markerRecognised ()) s = .next
      { s with line := { l with
          rx := .receiving
            { arrival := s.timer.clock
              slot := match s.line.window with
                | some w => w.slot
                | none => slotOfPhase s.timer.lengthCode s.timer.clock.phase
              bytes := [], part := [], silentHeld := false, damaged := false, first := none
              half := { seen := 0, carrier := 0 } }
          window := s.line.window.map fun w => { w with marker := true } } }) ∧
  (∀ s : State, (s.resetting ≠ none ∨ s.power.state ≠ .awake ∨ ∀ l, s.line.next ≠ some (l, .marker)) →
    exec (.markerRecognised ()) s = .next s) ∧
  (∀ (s : State) (l : LineUnit), s.Awake → s.line.next = some (l, .receptionEnd) →
    ∃ r, l.rx = .receiving r ∧ exec .receptionEnd s = .next
      { s with
        frame := { s.frame with waiting := s.frame.waiting ++
          [{ arrival := r.arrival, slot := r.slot, bytes := r.bytes
             condition := if r.damaged then .damaged else .complete, age := 0 }] }
        line := { l with
          rx := if s.member.station = .survey ∨ s.line.window ≠ none then .armed [] else .disarmed } }) ∧
  (∀ s : State, (s.resetting ≠ none ∨ s.power.state ≠ .awake ∨ ∀ l, s.line.next ≠ some (l, .receptionEnd)) →
    exec .receptionEnd s = .next s)

/-- In the LF period in which the clock reaches its start instant a PENDING beacon starts, SENDING and ECHO with
the window marked; a reception in progress is handed over, ABANDONED (one whose last cell the receiver would hear later
in this LF period included: the beacon starts where IRRX stands, log 25). A PENDING claim is deferred when the receiver
is RECEIVING or any of the 8 LF periods before shows a burst: the frame and the claim in hand are discarded, target and
try count kept; else it starts. Before that instant, and with nothing PENDING, nothing happens (R25, R28, R29, R79). -/
def Obligations.FramesStartAtTheirInstant : Prop :=
  (∀ (s : State) (f : OutFrame), s.Awake → s.line.tx = .pending f → f.kind = .beacon →
    s.timer.clock = f.start →
    ∃ t, exec .transmitStart s = .next t ∧
      t = { s with line := t.line, frame := t.frame } ∧
      t.line = { s.line with
        tx := .sending f 0 { seen := 0, carrier := 0 }, rx := .echo
        window := s.line.window.map fun w => { w with transmitted := true } } ∧
      t.frame = { s.frame with waiting := s.frame.waiting ++
        match s.line.rx with
        | .receiving r =>
          [{ arrival := r.arrival, slot := r.slot, bytes := r.bytes, condition := .abandoned, age := 0 }]
        | _ => [] }) ∧
  (∀ s : State, (s.resetting ≠ none ∨ s.power.state ≠ .awake ∨
      ∀ f, s.line.tx = .pending f → s.timer.clock ≠ f.start) →
    exec .transmitStart s = .next s) ∧
  (∀ (s : State) (f : OutFrame), s.Awake → s.line.tx = .pending f → f.kind = .claim →
     s.timer.clock = f.start →
     (((∃ r, s.line.rx = .receiving r) ∨ true ∈ s.line.history) →
       exec .transmitStart s = .next
         { s with
           line := { s.line with tx := .idle }
           frame := { s.frame with sending := none }
           member := { s.member with claim := none } }) ∧
     ((∀ r, s.line.rx ≠ .receiving r) → (∀ b ∈ s.line.history, b = false) →
       exec .transmitStart s = .next
         { s with line := { s.line with
             tx := .sending f 0 { seen := 0, carrier := 0 }, rx := .echo
             window := s.line.window.map fun w => { w with transmitted := true } } }))

/-- What the line and frame unit are after a transmission has been reported, the line unit having gone along IRRX to
`l` (R23, R26, R27, R37). -/
def Sys2Proof.Machine.State.FreedAfterSending (s t : State) (l : LineUnit) : Prop :=
  t.line = { l with
    tx := .idle
    rx := if s.member.station = .survey ∨ s.line.window ≠ none then .armed [] else .disarmed } ∧
  t.frame = { s.frame with sending := none }

/-- SENT, where the end of the closing silence comes next on IRRX (log 25). A claim in CLAIMING: CLEAN is recorded for
its open slot; where the target is VACANT or CLAIMED by a higher id the station takes the slot and is TENTATIVE, with the
claim round of its start; where it is OCCUPIED or CLAIMED by a lower id a new target is drawn among the VACANT slots in
ascending order with the tries as they stand, or with none VACANT BACKOFF (8) is entered. A beacon: CLEAN is recorded for
its slot; in TENTATIVE and SETTLED the own beacon outcome becomes SENT; in LEAVING a beacon flagged LEAVING counts, and
the second one completes the leave, what has fallen due being settled first. A beacon of a slot that the station has
released or given up since, one flagged otherwise in LEAVING, and a claim not in hand in CLAIMING are CLEAN, and nothing
else happens. While another thing comes next on IRRX nothing is reported (R27, R41, R53, R68, R70, R77, R80, R90, R147). -/
def Obligations.SentReachesTheStation : Prop :=
  (∀ (s : State) (l : LineUnit) (f : OutFrame) (n : Nat) (h : HalfCell) (c : ClaimInHand), s.Awake →
     s.line.next = some (l, .sent) → l.tx = .sending f n h → f.kind = .claim →
     s.member.station = .claiming → s.member.claim = some c →
     let noted := s.member.record (slotOfPhase s.timer.lengthCode f.start.phase) .clean f.start.round
     ∃ t, exec .sent s = .next t ∧ s.FreedAfterSending t l ∧
       t = { s with line := t.line, frame := t.frame, member := t.member, port := t.port } ∧
       ((s.member.kind c.target = .vacant ∨
           ∃ h r, s.member.kind c.target = .claimed h r ∧ s.ownId.toNat < h.toNat) →
         t.member = { (noted.setKind c.target .own).clearItems with
           station := .tentative, ownSlot := some c.target, claimRound := some f.start.round } ∧
         t.port = s.port) ∧
       ((s.member.kind c.target).Lost s.ownId →
         (∃ k, s.member.vacant[(lfsrDraw s.member.lfsr).toNat % s.member.vacant.length]? = some k ∧
           t.member = { noted with
             lfsr := lfsrDraw s.member.lfsr, claim := none, target := some k } ∧
           4 ≤ k.val ∧ s.member.kind k = .vacant ∧ t.port = s.port) ∨
         ((∀ k : Slot, 4 ≤ k.val → s.member.kind k ≠ .vacant) ∧
           t.member = { noted.clearItems with station := .backoff, backoff := 8 } ∧
           t.port = { s.port with
             events := appendEvent s.port.events ⟨.cellFull, s.timer.clock⟩ }))) ∧
  (∀ (s : State) (l : LineUnit) (f : OutFrame) (n : Nat) (h : HalfCell) (k : Slot) (flag : BeaconFlag), s.Awake →
    s.line.next = some (l, .sent) → l.tx = .sending f n h → f.kind = .beacon →
    s.frame.sending = some (.beacon k flag) →
    let noted := s.member.record k .clean f.start.round
    let holds := (s.member.station = .tentative ∨ s.member.station = .settled) ∧ s.member.ownSlot = some k
    ∃ t, exec .sent s = .next t ∧ t.timer = s.timer ∧
      (holds → s.FreedAfterSending t l ∧
        t = { s with line := t.line, frame := t.frame, member := { noted with ownOutcome := some .sent } }) ∧
      (s.member.station = .leaving → flag = .leaving → s.member.leavingBeacons = 0 →
        s.FreedAfterSending t l ∧
        t = { s with line := t.line, frame := t.frame, member := { noted with leavingBeacons := 1 } }) ∧
      (¬ holds → (s.member.station = .leaving → flag ≠ .leaving) →
        s.FreedAfterSending t l ∧ t = { s with line := t.line, frame := t.frame, member := noted }) ∧
      (s.member.station = .leaving → flag = .leaving → s.member.leavingBeacons = 1 →
        State.EntersReady { s with line := l } t ∧ t.sync = SyncUnit.reset ∧
        t.port.events = appendEvent s.settleCues.port.events ⟨.left, s.timer.clock⟩)) ∧
  (∀ (s : State) (l : LineUnit) (f : OutFrame) (n : Nat) (h : HalfCell), s.Awake →
    s.line.next = some (l, .sent) → l.tx = .sending f n h → f.kind = .claim →
    s.member.station ≠ .claiming ∨ s.member.claim = none →
    ∃ t, exec .sent s = .next t ∧ s.FreedAfterSending t l ∧
      t = { s with line := t.line, frame := t.frame, member :=
        s.member.record (slotOfPhase s.timer.lengthCode f.start.phase) .clean f.start.round }) ∧
  (∀ s : State, (s.resetting ≠ none ∨ s.power.state ≠ .awake ∨ ∀ l, s.line.next ≠ some (l, .sent)) →
    exec .sent s = .next s)

/-- COLLIDED, where a mismatched half comes next on IRRX (log 25). A claim in CLAIMING: GARBLED is recorded for its
open slot and a try counted; the fourth gives BACKOFF with a drawn length 1 to 8; before it the target is kept while
VACANT or CLAIMED by a higher id, and when it is lost redrawn at once among the VACANT slots in ascending order, or
with none VACANT BACKOFF (8) entered. The own beacon: GARBLED and an echo strike for the round of its start, which
STRIKE (ECHO) tells and which, in SETTLED, sets the flag of that round; in TENTATIVE, from the claim round on, the
station yields at once; a round that is neither the current one nor the one before, or in TENTATIVE lies before the
claim round, is disregarded (a later round: log 27). In LEAVING a beacon flagged LEAVING counts as when it is SENT. A
beacon of a slot that the station has released or given up since, one flagged otherwise in LEAVING, and a claim
outside CLAIMING or without a target are GARBLED, with no strike, count or try. While another thing comes next on IRRX
nothing is reported (R26, R41, R53, R68, R77, R79, R82, R83, R86, R90). -/
def Obligations.CollidedReachesTheStation : Prop :=
  (∀ (s : State) (l : LineUnit) (f : OutFrame) (n : Nat) (h : HalfCell) (k : Slot), s.Awake →
     s.line.next = some (l, .collided) → l.tx = .sending f n h → f.kind = .claim →
     s.member.station = .claiming → s.member.target = some k →
     let noted := s.member.record (slotOfPhase s.timer.lengthCode f.start.phase) .garbled f.start.round
     ∃ t, exec .collided s = .next t ∧ s.FreedAfterSending t l ∧
       t = { s with line := t.line, frame := t.frame, member := t.member, port := t.port } ∧
       (s.member.tries < 3 → ¬ (s.member.kind k).Lost s.ownId →
         t.member = { noted with claim := none, tries := s.member.tries + 1 } ∧ t.port = s.port) ∧
       (s.member.tries < 3 → (s.member.kind k).Lost s.ownId →
         (∃ j, s.member.vacant[(lfsrDraw s.member.lfsr).toNat % s.member.vacant.length]? = some j ∧
           t.member = { noted with
             lfsr := lfsrDraw s.member.lfsr, claim := none, tries := s.member.tries + 1, target := some j } ∧
           4 ≤ j.val ∧ s.member.kind j = .vacant ∧ t.port = s.port) ∨
         ((∀ j : Slot, 4 ≤ j.val → s.member.kind j ≠ .vacant) ∧
           t.member = { noted.clearItems with station := .backoff, backoff := 8 } ∧
           t.port = { s.port with
             events := appendEvent s.port.events ⟨.cellFull, s.timer.clock⟩ })) ∧
       (s.member.tries = 3 →
         t.member = { noted.clearItems with
           lfsr := lfsrDraw s.member.lfsr, station := .backoff
           backoff := 1 + (lfsrDraw s.member.lfsr).toNat % 8 } ∧ t.port = s.port)) ∧
  (∀ (s : State) (l : LineUnit) (f : OutFrame) (n : Nat) (h : HalfCell) (k : Slot) (flag : BeaconFlag), s.Awake →
    s.line.next = some (l, .collided) → l.tx = .sending f n h → f.kind = .beacon →
    s.frame.sending = some (.beacon k flag) →
    s.member.station = .tentative ∨ s.member.station = .settled → s.member.ownSlot = some k →
    let noted := { s.member.record k .garbled f.start.round with ownOutcome := some .collided }
    let now := s.timer.clock.round
    let counts := (f.start.round = now ∨ f.start.round = now - 1) ∧
      (s.member.station = .tentative → ∀ c, s.member.claimRound = some c → (c - f.start.round).toInt < 1)
    let struck : State := { s with
      line := { l with tx := .idle, rx := if s.line.window ≠ none then .armed [] else .disarmed }
      frame := { s.frame with sending := none }
      member := { noted with
        strikeNow := s.member.strikeNow || decide (f.start.round = now)
        strikeBefore := s.member.strikeBefore || decide (f.start.round ≠ now) }
      port := { s.port with events := appendEvent s.port.events ⟨.strike k none, s.timer.clock⟩ } }
    ∃ t, exec .collided s = .next t ∧ s.FreedAfterSending t l ∧
      t = { s with line := t.line, frame := t.frame, member := t.member, port := t.port } ∧
      (counts → s.member.station = .settled → t.member = struck.member ∧ t.port = struck.port) ∧
      (counts → s.member.station = .tentative → State.Yields struck t k) ∧
      (¬ counts → t.member = noted ∧ t.port = s.port)) ∧
  (∀ (s : State) (l : LineUnit) (f : OutFrame) (n : Nat) (h : HalfCell) (k : Slot), s.Awake →
    s.line.next = some (l, .collided) → l.tx = .sending f n h → f.kind = .beacon →
    s.frame.sending = some (.beacon k .leaving) → s.member.station = .leaving →
    ∃ t, exec .collided s = .next t ∧ t.timer = s.timer ∧
      (s.member.leavingBeacons = 0 → s.FreedAfterSending t l ∧
        t = { s with line := t.line, frame := t.frame, member :=
          { s.member.record k .garbled f.start.round with leavingBeacons := 1 } }) ∧
      (s.member.leavingBeacons = 1 → State.EntersReady { s with line := l } t ∧ t.sync = SyncUnit.reset ∧
        t.port.events = appendEvent s.settleCues.port.events ⟨.left, s.timer.clock⟩)) ∧
  (∀ (s : State) (l : LineUnit) (f : OutFrame) (n : Nat) (h : HalfCell) (k : Slot) (flag : BeaconFlag), s.Awake →
    s.line.next = some (l, .collided) → l.tx = .sending f n h → f.kind = .beacon →
    s.frame.sending = some (.beacon k flag) →
    ¬ ((s.member.station = .tentative ∨ s.member.station = .settled) ∧ s.member.ownSlot = some k) →
    (s.member.station = .leaving → flag ≠ .leaving) →
    ∃ t, exec .collided s = .next t ∧ s.FreedAfterSending t l ∧
      t = { s with line := t.line, frame := t.frame, member := s.member.record k .garbled f.start.round }) ∧
  (∀ (s : State) (l : LineUnit) (f : OutFrame) (n : Nat) (h : HalfCell), s.Awake →
    s.line.next = some (l, .collided) → l.tx = .sending f n h → f.kind = .claim →
    s.member.station ≠ .claiming ∨ s.member.target = none →
    ∃ t, exec .collided s = .next t ∧ s.FreedAfterSending t l ∧
      t = { s with line := t.line, frame := t.frame, member :=
        s.member.record (slotOfPhase s.timer.lengthCode f.start.phase) .garbled f.start.round }) ∧
  (∀ s : State, (s.resetting ≠ none ∨ s.power.state ≠ .awake ∨ ∀ l, s.line.next ≠ some (l, .collided)) →
    exec .collided s = .next s)

/-! ## Receptions (chapters 3, 4, 5 and 6) -/

/-- The reception in front: AWAKE, the one before it handed out, and this one the oldest waiting. -/
def Sys2Proof.Machine.State.Parses (s : State) (r : WaitingReception) (rest : List WaitingReception) : Prop :=
  s.Awake ∧ s.frame.items = [] ∧ s.frame.waiting = r :: rest

/-- The listening round of a reception (R52). -/
def Sys2Proof.Machine.WaitingReception.listens (code : Fin 4) (r : WaitingReception) : Round :=
  if r.slot.val = 0 ∧ slotOfPhase code r.arrival.phase = 31 then r.arrival.round + 1 else r.arrival.round

/-- A frame that this station may take as valid: the ranges of R43. -/
def Sys2Proof.Machine.Frame.Valid (L : Nat) (own : Byte) : Frame → Prop
  | .beacon _ sender _ slot members lowest _ items =>
    1 ≤ sender.toNat ∧ sender.toNat ≤ 254 ∧ sender ≠ own ∧ 4 ≤ slot.val ∧
    1 ≤ members.toNat ∧ members.toNat ≤ 28 ∧ 1 ≤ lowest.toNat ∧ lowest.toNat ≤ 254 ∧
    items.length ≤ 3 ∧ ∀ i ∈ items,
      1 ≤ i.origin.toNat ∧ i.origin.toNat ≤ 254 ∧ i.mask ≠ 0 ∧ (i.action = .pulse → i.width ≠ 0) ∧
      i.due.phase < L
  | .claim sender _ _ target =>
    1 ≤ sender.toNat ∧ sender.toNat ≤ 254 ∧ sender ≠ own ∧ 4 ≤ target.val

/-- A number in three bytes, most significant first. -/
def Sys2Proof.Machine.threeBytes (n : Nat) : List Byte :=
  [BitVec.ofNat 8 (n / 65536), BitVec.ofNat 8 (n / 256), BitVec.ofNat 8 n]

/-- The eleven bytes of a carry item (R173). -/
def Sys2Proof.Machine.CarryItem.layout (i : CarryItem) : List Byte :=
  let kind := match i.kind with
    | .cue => 1
    | .withdrawal => 2
  let action := match i.action with
    | .pulse => 1
    | .on => 2
    | .off => 3
    | .toggle => 4
  [BitVec.ofNat 8 (kind * 64 + i.line.val * 16 + action), i.origin, i.seq] ++
    threeBytes i.due.round.toNat ++ threeBytes i.due.phase ++ [i.width, i.mask]

/-- The bytes of a frame before its CRC (R173). -/
def Sys2Proof.Machine.Frame.layout : Frame → List Byte
  | .beacon flag sender round slot members lowest map items =>
    let kind : Byte := match flag with
      | .tentative => 0xB1
      | .settled => 0xB2
      | .leaving => 0xB3
    [kind, sender] ++ threeBytes round.toNat ++ [BitVec.ofNat 8 slot.val, members, lowest] ++
      [BitVec.ofNat 8 (map.toNat / 2 ^ 24)] ++ threeBytes map.toNat ++
      [BitVec.ofNat 8 items.length] ++ items.flatMap CarryItem.layout
  | .claim sender round position target =>
    [0xC5, sender] ++ threeBytes round.toNat ++ [BitVec.ofNat 8 position.val, BitVec.ofNat 8 target.val]

/-- Building and reading a frame agree: bytes are read as a frame exactly when the reception is COMPLETE, the
frame's ranges hold, and the bytes are those the frame is built as, CRC included. A frame is built as its fields in the
order of R173, then its CRC, high byte first; the garbled map has slot 0 at the most significant bit of its first byte.
The CRC starts at A55A; each bit, most significant first, and bit 15 of the register give the feedback, and the register
is shifted by one place toward bit 15 and, where the feedback is 1, combined with 1021 (R34 to R36, R39, R43, R173,
R174). -/
def Obligations.FramesAreReadExactlyAsBuilt : Prop :=
  (∀ f : Frame, f.bytes = f.layout ++
    [BitVec.ofNat 8 ((crc16 f.layout).toNat / 256), BitVec.ofNat 8 (crc16 f.layout).toNat]) ∧
  (∀ (flags : Slot → Bool) (k : Slot), (garbledMapOf flags).getMsbD k.val = flags k) ∧
  crc16 [] = 0xA55A ∧
  (∀ (bytes : List Byte) (b : Byte), crc16 (bytes ++ [b]) =
    [b.getLsbD 7, b.getLsbD 6, b.getLsbD 5, b.getLsbD 4, b.getLsbD 3, b.getLsbD 2, b.getLsbD 1, b.getLsbD 0].foldl
      (fun (register : BitVec 16) bit => if bit != register.getLsbD 15 then (register <<< 1) ^^^ 0x1021 else register <<< 1)
      (crc16 bytes)) ∧
  ∀ (L : Nat) (own : Byte) (condition : Condition) (bytes : List Byte) (f : Frame), L ≤ 131072 →
    (readFrame L own condition bytes = some f ↔
      condition = .complete ∧ f.Valid L own ∧ f.bytes = bytes)

/-- An invalid reception gives a GARBLED outcome for its attributed slot and reaches no other block; so does one that is
DAMAGED or ABANDONED, or that carries this station's own id as sender. An outcome recorded for another listening round
replaces the last outcome; for the same round the stronger one is kept, GARBLED over CLEAN over SILENT over UNHEARD;
kinds and other slots stay (R44, R52). -/
def Obligations.OutcomesAreRecorded : Prop :=
  (∀ (s : State) (r : WaitingReception) (rest : List WaitingReception), s.Parses r rest →
    readFrame s.L s.ownId r.condition r.bytes = none →
    exec .parseReception s = .next
      { s with
        frame := { s.frame with waiting := rest }
        member := s.member.record r.slot .garbled (r.listens s.timer.lengthCode) }) ∧
  (∀ (L : Nat) (own : Byte) (condition : Condition) (bytes : List Byte), condition ≠ .complete →
    readFrame L own condition bytes = none) ∧
  (∀ (L : Nat) (own kind : Byte) (condition : Condition) (rest : List Byte),
    readFrame L own condition (kind :: own :: rest) = none) ∧
  ∀ (m : Membership) (k j : Slot) (o : SlotOutcome) (round : Round),
    let rank : SlotOutcome → Nat := fun
      | .unheard => 0
      | .silent => 1
      | .clean => 2
      | .garbled => 3
    ((m.record k o round).slots[j]).kind = (m.slots[j]).kind ∧
    (j ≠ k → (m.record k o round).slots[j] = m.slots[j]) ∧
    ((m.record k o round).slots[k]).outcomeRound = round ∧
    ((m.record k o round).slots[k]).outcome =
      if (m.slots[k]).outcomeRound ≠ round ∨ rank (m.slots[k]).outcome < rank o then o
      else (m.slots[k]).outcome

/-- The offset of a valid frame: its arrival instant less its nominal instant, k×S + 21 for a beacon of slot k and
o×S + 16 + p×(S/4) + 5 for a claim at position o×4 + p (R45). -/
def Sys2Proof.Machine.State.offsetOf (s : State) (r : WaitingReception) (f : Frame) : Int :=
  instantDiff s.L r.arrival
    { round := f.round
      phase := match f with
        | .beacon _ _ _ k _ _ _ _ => k.val * s.S + 21
        | .claim _ _ n _ => n.val / 4 * s.S + 16 + n.val % 4 * (s.S / 4) + 5 }

/-- A foreign claim, and a foreign beacon that is not SETTLED or that comes where no candidate is kept, gives only
its CLEAN outcome. A foreign SETTLED beacon in the five states forms a candidate with its round lead, kept if it
ranks above the one held: by member count, then lowest id, then lead, then sender (R46, R99, R100). -/
def Obligations.ForeignFramesOnlyFormCandidates : Prop :=
  ∀ (s : State) (r : WaitingReception) (rest : List WaitingReception) (f : Frame), s.Parses r rest →
    readFrame s.L s.ownId r.condition r.bytes = some f →
    (s.offsetOf r f < -32 ∨ 32 < s.offsetOf r f) →
    let clean : State := { s with
      frame := { s.frame with waiting := rest }
      member := s.member.record r.slot .clean (r.listens s.timer.lengthCode) }
    match f with
    | .claim _ _ _ _ => exec .parseReception s = .next clean
    | .beacon flag sender _ _ members lowest _ _ =>
      (flag ≠ .settled ∨ s.member.station.inCell = false ∧
          ¬ (s.member.station = .survey ∧ s.member.surveyEnd = none) →
        exec .parseReception s = .next clean) ∧
      (flag = .settled → s.member.station.inCell = true →
        let new : Candidate := { sender := sender, members := members, lowest := lowest
                                 lead := (s.offsetOf r f).tdiv s.L }
        ∃ kept, exec .parseReception s = .next
            { clean with member := { clean.member with candidate := some kept } } ∧
          (s.member.candidate = none → kept = new) ∧
          (∀ h, s.member.candidate = some h →
            (h.members.toNat < members.toNat ∨
              members = h.members ∧ (lowest.toNat < h.lowest.toNat ∨
                lowest = h.lowest ∧ (h.lead < new.lead ∨
                  new.lead = h.lead ∧ sender.toNat < h.sender.toNat)) → kept = new) ∧
            (¬ (h.members.toNat < members.toNat ∨
              members = h.members ∧ (lowest.toNat < h.lowest.toNat ∨
                lowest = h.lowest ∧ (h.lead < new.lead ∨
                  new.lead = h.lead ∧ sender.toNat < h.sender.toNat))) → kept = h)))

/-- A valid reception has been taken from the list, and CLEAN recorded for its slot and listening round (R44, R52). -/
def Sys2Proof.Machine.State.heardClean (s : State) (r : WaitingReception) (rest : List WaitingReception) : State :=
  { s with
    frame := { s.frame with waiting := rest }
    member := s.member.record r.slot .clean (r.listens s.timer.lengthCode) }

/-- From `s` to `t` the peer table has taken station `id`: its entry becomes what `entry` makes of it, or a new one is
added in ascending order of id while fewer than 28 are held, and PEER_NEW queued (R59, R60). -/
def Sys2Proof.Machine.State.NotesPeer (s t : State) (id : Byte) (entry : Option PeerEntry → PeerEntry) : Prop :=
  t = { s with member := t.member, port := t.port } ∧
  t.member = { s.member with slots := t.member.slots, peers := t.member.peers } ∧
  (∀ j : Slot, ((t.member.slots[j]).outcome, (t.member.slots[j]).outcomeRound) =
    ((s.member.slots[j]).outcome, (s.member.slots[j]).outcomeRound)) ∧
  t.member.peers =
    (if s.member.peer? id ≠ none then s.member.peers.map fun q => if q.id = id then entry (some q) else q
     else if s.member.peers.length < 28 then
       s.member.peers.takeWhile (fun q => decide (q.id.toNat ≤ id.toNat)) ++ entry none ::
         s.member.peers.dropWhile (fun q => decide (q.id.toNat ≤ id.toNat))
     else s.member.peers) ∧
  t.port = { s.port with
    events := if s.member.peer? id = none ∧ s.member.peers.length < 28 then
      appendEvent s.port.events ⟨.peerNew id (entry none).slot, s.timer.clock⟩ else s.port.events }

/-- From `s` to `t` a native claim of `sender` has been noted. A VACANT target becomes CLAIMED, a CLAIMED one passes to
a lower id only; the claimant's other claims return to VACANT; a slot it held as OCCUPIED passes on, the target too and
without becoming CLAIMED (log 12); every other slot stays. The claimant is a CLAIMANT peer heard in the frame's round,
with no slot, where the peer table has room for it (R56, R58, R60, R62). -/
def Sys2Proof.Machine.State.NotesClaim (s t : State) (sender : Byte) (round : Round) (target : Slot) : Prop :=
  s.NotesPeer t sender (fun
    | some q => { q with slot := none, state := .claimant, heard := round }
    | none => { id := sender, slot := none, state := .claimant, heard := round, missed := 0, report := none }) ∧
  ∀ j : Slot, t.member.kind j =
    match s.member.kind j with
    | .vacant => if j = target then .claimed sender round else .vacant
    | .claimed h c =>
      if j = target then if sender.toNat < h.toNat then .claimed sender round else .claimed h c
      else if h = sender then .vacant else .claimed h c
    | .occupied h =>
      if h = sender then passedOn t.member.peers j else .occupied h
    | other => other

/-- From `s` to `t` a native beacon of slot `k` from station `id` has been noted, `entry` being what it reports. A VACANT
or CLAIMED slot becomes OCCUPIED by the sender, another slot it held as OCCUPIED passes on, also where the table is full
and the sender in no entry; every other slot stays (R55, R58, R60, R61). -/
def Sys2Proof.Machine.State.NotesBeacon (s t : State) (k : Slot) (entry : PeerEntry) : Prop :=
  s.NotesPeer t entry.id (fun _ => entry) ∧
  ∀ j : Slot, t.member.kind j =
    match s.member.kind j with
    | .vacant => if j = k then .occupied entry.id else .vacant
    | .claimed h c => if j = k then .occupied entry.id else .claimed h c
    | .occupied h =>
      if j ≠ k ∧ h = entry.id then passedOn t.member.peers j else .occupied h
    | other => other

/-- The tie of R81 on a claim of `sender` for `target`: in TENTATIVE, for the own slot, from a lower id, in the claim
round and before the own beacon of it has an outcome or is SENDING. That the slot is CLAIMED by that claimant even
where a third station reports it is log 24. -/
def Sys2Proof.Machine.State.LosesTheTie (s : State) (sender : Byte) (target : Slot) : Prop :=
  s.member.station = .tentative ∧ s.member.ownSlot = some target ∧ sender.toNat < s.ownId.toNat ∧
  s.member.claimRound = some s.timer.clock.round ∧ s.member.ownOutcome = none ∧
  s.line.tx.sendingKind .beacon = false

/-- A native claim, but for the tie of R81: CLEAN is recorded, the claim noted in slot and peer table with PEER_NEW for
a new peer, and in CLAIMING a target lost to a lower id redrawn unless the own claim is SENDING; nothing else changes, in
TENTATIVE neither. That a claim for the very slot its sender holds leaves it VACANT or passed on is log 12; that PEER_NEW
comes before CELL_FULL and the target is drawn from the tables after the claim is log 20 (R56, R58, R60, R62, R77). -/
def Obligations.NativeClaimMarksItsTarget : Prop :=
  ∀ (s : State) (r : WaitingReception) (rest : List WaitingReception) (sender : Byte) (round : Round)
    (n : Fin 16) (target : Slot), s.Parses r rest →
    readFrame s.L s.ownId r.condition r.bytes = some (.claim sender round n target) →
    -32 ≤ s.offsetOf r (.claim sender round n target) →
    s.offsetOf r (.claim sender round n target) ≤ 32 → ¬ s.LosesTheTie sender target →
    ∃ t u, exec .parseReception s = .next t ∧
      State.NotesClaim (s.heardClean r rest) u sender round target ∧ State.WatchesTarget u t ∧
      t = { u with member := t.member, port := t.port, line := t.line, frame := t.frame } ∧
      t.frame = { u.frame with sending := t.frame.sending }

/-- The tie of R81, in TENTATIVE: a lower id's native claim for the own slot, in the claim round and before the own
beacon of that round, takes the slot, which is CLAIMED by the claimant even where a third station reports it (log 24); a
PENDING beacon is withdrawn, and the station is CLAIMING with a new target or, with no slot VACANT, in BACKOFF; nothing
else changes. A claim from a higher id, or at another time, leaves state and slot. That PEER_NEW comes before CELL_FULL and the target is drawn
from the tables after the claim is log 20 (R81). -/
def Obligations.LowerIdWinsTheTie : Prop :=
  ∀ (s : State) (r : WaitingReception) (rest : List WaitingReception) (sender : Byte) (round : Round)
    (n : Fin 16) (own : Slot), s.Parses r rest →
    readFrame s.L s.ownId r.condition r.bytes = some (.claim sender round n own) →
    -32 ≤ s.offsetOf r (.claim sender round n own) →
    s.offsetOf r (.claim sender round n own) ≤ 32 →
    s.member.station = .tentative → s.member.ownSlot = some own → s.member.kind own = .own →
    ∃ t u, exec .parseReception s = .next t ∧
      State.NotesClaim (s.heardClean r rest) u sender round own ∧
      (s.LosesTheTie sender own →
        State.EntersClaiming
          { u.unframed .beacon with member := u.member.setKind own (.claimed sender round) } t ∧
        t.member.kind own = .claimed sender round ∧ t.member.ownSlot = none ∧ t.member.tries = 0) ∧
      (¬ s.LosesTheTie sender own →
        t = u ∧ t.member.kind own = .own ∧ t.member.station = .tentative ∧ t.member.ownSlot = some own)

/-- A native beacon that is not aligned to and that reports no strike: CLEAN is recorded, the beacon noted in slot and
peer table with PEER_NEW for a new peer, also where it names the own slot, which stays OWN; in CLAIMING a target that it
makes OCCUPIED is redrawn unless the own claim is SENDING; a SETTLED one gives the sync unit its sample; its items wait
for the cue table; nothing else changes. That PEER_NEW comes before CELL_FULL and the target is drawn from the tables after
the beacon is log 20 (R48, R55, R58, R60, R61, R77, R82). -/
def Obligations.NativeBeaconMarksItsSlot : Prop :=
  ∀ (s : State) (r : WaitingReception) (rest : List WaitingReception) (flag : BeaconFlag) (sender : Byte)
    (round : Round) (k : Slot) (members lowest : Byte) (map : BitVec 32) (items : List CarryItem),
    let f := Frame.beacon flag sender round k members lowest map items
    s.Parses r rest → readFrame s.L s.ownId r.condition r.bytes = some f →
    -32 ≤ s.offsetOf r f → s.offsetOf r f ≤ 32 →
    ¬ (s.member.station = .survey ∧ s.member.surveyEnd = none ∧ flag = .settled) →
    (flag = .settled → s.member.station = .tentative ∨ s.member.station = .settled →
      ∀ own, s.member.ownSlot = some own → own ≠ k → map.getMsbD own.val = false) →
    ∃ t u, exec .parseReception s = .next t ∧
      State.NotesBeacon (s.heardClean r rest) u k
        { id := sender, slot := some k, heard := round, missed := 0
          state := match flag with
            | .tentative => .tentative
            | .settled => .settled
            | .leaving => .leaving
          report := some { offset := s.offsetOf r f, members := members, lowest := lowest } } ∧
      State.WatchesTarget u t ∧
      t = { u with member := t.member, port := t.port, line := t.line, frame := t.frame, sync := t.sync } ∧
      t.frame = { u.frame with items := items, itemsAge := r.age, sending := t.frame.sending } ∧
      t.sync = if flag = .settled then s.sync.take sender (s.offsetOf r f) r.arrival.round else s.sync

/-- A native SETTLED beacon of another slot whose garbled map flags the own slot, in TENTATIVE and SETTLED: a reported
strike, for the beacon's round if the sender's slot is the later one and else for the round before. For the current round
and the one before, in TENTATIVE not before the claim round, STRIKE (REPORTED) is queued and the flag of that round set,
and a TENTATIVE station yields at once. Any other is disregarded, one for a later round too (log 27), with the beacon
noted as always. Strike or none, the sync unit gets the beacon's sample, its items wait for the cue table, and nothing
else changes. That PEER_NEW comes before STRIKE and YIELDED is log 20 (R48, R82, R83). -/
def Obligations.GarbledMapReportsAStrike : Prop :=
  ∀ (s : State) (r : WaitingReception) (rest : List WaitingReception) (sender : Byte)
    (round : Round) (k own : Slot) (members lowest : Byte) (map : BitVec 32) (items : List CarryItem),
    let f := Frame.beacon .settled sender round k members lowest map items
    s.Parses r rest → readFrame s.L s.ownId r.condition r.bytes = some f →
    -32 ≤ s.offsetOf r f → s.offsetOf r f ≤ 32 →
    s.member.station = .tentative ∨ s.member.station = .settled → s.member.ownSlot = some own →
    own ≠ k → map.getMsbD own.val = true →
    let now := s.timer.clock.round
    let described := if own.val < k.val then round else round - 1
    let counts := (described = now ∨ described = now - 1) ∧
      (s.member.station = .tentative → ∀ c, s.member.claimRound = some c → (c - described).toInt < 1)
    ∃ t u, exec .parseReception s = .next t ∧
      State.NotesBeacon (s.heardClean r rest) u k
        { id := sender, slot := some k, heard := round, missed := 0, state := .settled
          report := some { offset := s.offsetOf r f, members := members, lowest := lowest } } ∧
      t = { u with member := t.member, port := t.port, line := t.line, frame := t.frame, sync := t.sync } ∧
      t.frame = { u.frame with items := items, itemsAge := r.age, sending := t.frame.sending } ∧
      t.sync = s.sync.take sender (s.offsetOf r f) r.arrival.round ∧
      let struck : State := { u with
        member := { u.member with
          strikeNow := s.member.strikeNow || decide (described = now)
          strikeBefore := s.member.strikeBefore || decide (described ≠ now) }
        port := { u.port with
          events := appendEvent u.port.events ⟨.strike own (some sender), s.timer.clock⟩ } }
      (counts → s.member.station = .settled →
        t.member = struck.member ∧ t.port = struck.port ∧ t.line = s.line ∧ t.frame.sending = s.frame.sending) ∧
      (counts → s.member.station = .tentative → State.Yields struck t own) ∧
      (¬ counts → t.member = u.member ∧ t.port = u.port ∧ t.line = s.line ∧ t.frame.sending = s.frame.sending)

/-- In SURVEY before an alignment a valid SETTLED beacon is aligned to, whatever its verdict. What the old clock value has
reached comes about first (log 21). The clock becomes the nominal instant plus the time since the arrival; a jump other
than 0 clears the seam record and moves the arrival of a reception in progress, a jump of 0 changes nothing of the timer
(log 14). Held reports are recorded, with the clock after the move (log 34), the cue table is kept or cleared with its
events, and ALIGNED is queued. The survey ends two rounds on; the sender is a peer with offset 0 and its slot OCCUPIED;
the samples are its sample of 0 alone; its items wait (R14, R15, R30, R49, R72, R73, R97, R105, R122, R123). -/
def Obligations.SurveyAlignsToASettledBeacon : Prop :=
  ∀ (s : State) (r : WaitingReception) (rest : List WaitingReception) (sender : Byte)
    (round : Round) (k : Slot) (members lowest : Byte) (map : BitVec 32) (items : List CarryItem),
    s.Parses r rest →
    readFrame s.L s.ownId r.condition r.bytes =
      some (.beacon .settled sender round k members lowest map items) →
    s.member.station = .survey → s.member.surveyEnd = none →
    let nominal : Instant := ⟨round, k.val * s.S + 21⟩
    let after := instantAdd s.L nominal (instantDiff s.L s.timer.clock r.arrival)
    let jump := instantDiff s.L after s.timer.clock
    ∃ s0 t u, runRows [.pulseEnd 0, .pulseEnd 1, .pulseEnd 2, .pulseEnd 3, .cueFallsDue, .slotStart, .roundWrap]
        (s.heardClean r rest) = .next s0 ∧
      exec .parseReception s = .next t ∧
      (jump ≠ 0 → t.timer = { s0.timer with clock := after, seamRecord := none, counted := false } ∧
        t.power = { s0.power with fullListenBar := decide (after.round.toNat % 16 = 0) } ∧
        ∀ q, s.line.rx = .receiving q →
          t.line.rx = .receiving { q with arrival := instantAdd s.L q.arrival jump }) ∧
      (jump = 0 → t.timer = s0.timer ∧ t.timer.clock = s.timer.clock ∧ t.power = s0.power ∧ t.line = s0.line) ∧
      let m := State.recordReports { s0 with timer := t.timer }
      let table := keepOrClear s.L t.timer.clock (jump.tdiv s.L) m.cues.entries
      let aligned : State := { m with port := { m.port with
        events := ((table.2.1 ++ [EventKind.aligned t.timer.clock.round table.2.2.1 table.2.2.2]).map
          fun e => (⟨e, t.timer.clock⟩ : EventRecord)).foldl appendEvent m.port.events } }
      t.cues = { m.cues with entries := table.1 } ∧ t.firing = m.firing ∧ t.firing.reports = [] ∧
      State.NotesBeacon aligned u k
        { id := sender, slot := some k, heard := round, missed := 0, state := .settled
          report := some { offset := 0, members := members, lowest := lowest } } ∧
      t.member = { u.member with surveyEnd := some (t.timer.clock.round + 2) } ∧
      t.member.station = .survey ∧ t.port = u.port ∧
      t.sync = { samples := [{ id := sender, offset := 0 }], listRound := some round, closedRound := none
                 lastCorrection := s.sync.lastCorrection } ∧
      t.frame = { s.frame with waiting := rest, items := items, itemsAge := r.age }

/-- The keep or clear rule: with a jump of −2 to +2 whole rounds the table is kept, its PENDING and WITHDRAWN
entries no later than the clock retired as MISSED, with CUE_MISSED, or as WITHDRAWN, and the number held is
reported; with any other jump it is cleared and the number removed reported (R122, R123). -/
def Obligations.AlignmentKeepsOrClearsTheCues : Prop :=
  ∀ (L : Nat) (now : Instant) (d : Int) (entries : List CueEntry),
    let overtaken : CueEntry → Bool := fun e => decide (instantDiff L e.due now ≤ 0)
    keepOrClear L now d entries =
      if -2 ≤ d ∧ d ≤ 2 then
        (entries.map (fun e =>
            if e.state = .pending ∧ overtaken e then { e with state := .retired .missed }
            else if e.state = .withdrawn ∧ overtaken e then { e with state := .retired .withdrawn }
            else e),
          (entries.filter fun e => decide (e.state = .pending) && overtaken e).map
            (fun e => .cueMissed e.origin e.seq),
          false, entries.length)
      else ([], [], true, entries.length)

/-! ## Cue table (chapters 7 and 8) -/

/-- The table an item finds: what the clock has reached falls due and every held report is recorded first (R120). -/
def Sys2Proof.Machine.State.itemTaken (s : State) (rest : List CarryItem) : State :=
  State.settleCues { s with frame := { s.frame with items := rest } }

/-- A carry item that is stale, beyond the horizon, or this station's own with its key not held is discarded. One
whose key is held changes nothing where the entry is WITHDRAWN or RETIRED, or PENDING with identical content;
CUE_CONFLICT is queued where a CUE's content or a WITHDRAWAL's due instant differs; a WITHDRAWAL with the entry's
due instant makes it WITHDRAWN with forward count 0 (R113 to R115). -/
def Obligations.CarryItemsAreJudged : Prop :=
  (∀ (s : State) (i : CarryItem) (rest : List CarryItem), s.Awake → s.frame.items = i :: rest →
    let m := s.itemTaken rest
    let held := m.cues.entries.find? fun e => decide (e.origin = i.origin ∧ e.seq = i.seq)
    let ahead := instantDiff s.L i.due s.timer.clock
    let beyond := instantDiff s.L i.due (instantAddRounds s.timer.clock 4096)
    let conflict : State := { m with port := { m.port with
      events := appendEvent m.port.events ⟨.cueConflict i.origin i.seq, s.timer.clock⟩ } }
    (ahead ≤ 0 ∨ 0 < beyond ∨ i.origin = s.ownId ∧ held = none → exec .carryItem s = .next m) ∧
    (∀ e, 0 < ahead → beyond ≤ 0 → held = some e →
      (e.state ≠ .pending → exec .carryItem s = .next m) ∧
      (e.state = .pending → i.kind = .cue →
        exec .carryItem s = .next
          (if i.due = e.due ∧ i.line = e.line ∧ i.action = e.action ∧ i.mask = e.mask ∧
              (i.action = .pulse → i.width = e.width) then m else conflict)) ∧
      (e.state = .pending → i.kind = .withdrawal →
        exec .carryItem s = .next
          (if i.due = e.due then
            { m with cues := { m.cues with entries := m.cues.entries.map fun x =>
                if x.origin = i.origin ∧ x.seq = i.seq then { x with state := .withdrawn, forward := 0 }
                else x } }
           else conflict)))) ∧
  (∀ s : State, (s.power.state ≠ .awake ∨ s.frame.items = []) → exec .carryItem s = .next s)

/-- An item whose key is not held is inserted, PENDING or as a tombstone, at the place the order of R107 gives it,
where room is made, and is else refused with CUE_REFUSED. Room: fewer than 24 entries; else the first RETIRED entry
not later than the clock goes silently; else the last PENDING entry of another origin goes with CUE_EVICTED if the
newcomer is due earlier: in a table in order that is the latest due, and that the model takes the last one in any table
is log 28 (R107, R116 to R118). -/
def Obligations.NewcomersFindTheirPlace : Prop :=
  (∀ (s : State) (i : CarryItem) (rest : List CarryItem), s.Awake → s.frame.items = i :: rest →
    let m := s.itemTaken rest
    0 < instantDiff s.L i.due s.timer.clock →
    instantDiff s.L i.due (instantAddRounds s.timer.clock 4096) ≤ 0 → i.origin ≠ s.ownId →
    (∀ e ∈ m.cues.entries, ¬ (e.origin = i.origin ∧ e.seq = i.seq)) →
    let entry : CueEntry :=
      { origin := i.origin, seq := i.seq, due := i.due, line := i.line, action := i.action
        width := i.width, mask := i.mask, forward := 0, own := false
        state := if i.kind = .cue then .pending else .withdrawn }
    match makeRoom s.L s.timer.clock i.due m.cues.entries with
    | some (room, events) => exec .carryItem s = .next
        { m with
          cues := { m.cues with entries := insertCue s.L entry room }
          port := { m.port with
            events := (events.map fun k => ⟨k, s.timer.clock⟩).foldl appendEvent m.port.events } }
    | none => exec .carryItem s = .next
        { m with port := { m.port with
          events := appendEvent m.port.events ⟨.cueRefused i.origin i.seq, s.timer.clock⟩ } }) ∧
  (∀ (L : Nat) (now due : Instant) (entries : List CueEntry), entries.length < 24 →
    makeRoom L now due entries = some (entries, [])) ∧
  (∀ (L : Nat) (now due : Instant) (a b : List CueEntry) (e : CueEntry), 24 ≤ (a ++ e :: b).length →
    (∀ x ∈ a, x.isRetired = true → 0 < instantDiff L x.due now) →
    e.isRetired = true → instantDiff L e.due now ≤ 0 →
    makeRoom L now due (a ++ e :: b) = some (removeCue (a ++ e :: b) e.origin e.seq, [])) ∧
  (∀ (L : Nat) (now due : Instant) (a b : List CueEntry) (v : CueEntry), 24 ≤ (a ++ v :: b).length →
    (∀ x ∈ a ++ v :: b, x.isRetired = true → 0 < instantDiff L x.due now) →
    v.state = .pending → v.own = false → (∀ x ∈ b, x.state = .pending → x.own = true) →
    makeRoom L now due (a ++ v :: b) =
      if instantDiff L due v.due < 0 then
        some (removeCue (a ++ v :: b) v.origin v.seq, [.cueEvicted v.origin v.seq])
      else none) ∧
  (∀ (L : Nat) (now due : Instant) (entries : List CueEntry), 24 ≤ entries.length →
    (∀ x ∈ entries, x.isRetired = true → 0 < instantDiff L x.due now) →
    (∀ x ∈ entries, x.state = .pending → x.own = true) → makeRoom L now due entries = none) ∧
  (∀ (L : Nat) (e : CueEntry) (entries : List CueEntry),
    let after : CueEntry → Bool := fun x => decide (instantDiff L e.due x.due < 0 ∨
      instantDiff L e.due x.due = 0 ∧
        (e.origin.toNat < x.origin.toNat ∨ e.origin = x.origin ∧ e.seq.toNat < x.seq.toNat))
    insertCue L e entries =
      entries.takeWhile (fun x => !after x) ++ e :: entries.dropWhile (fun x => !after x))

/-! ## Firing unit (chapter 9) -/

/-- CUE_FALLS_DUE at the watched instant, reached by counting: every entry there is reported in table order with
lateness 0, a PENDING one FIRED if its group matches and else SKIPPED, a WITHDRAWN one WITHDRAWN; the actions of the
FIRED ones reach their lines in table order, a pulse that ends in this LF period being IDLE before (that it is marked so
until then is log 23); a dozing station wakes for FIRING. Otherwise nothing happens. RECORD_FIRING_REPORT retires the
entry of the oldest report, with CUE_FIRED for FIRED. What a command that reads the table finds is what these two rows
leave. Watched are the PENDING and WITHDRAWN entries with no report, in table order, the earliest due first; the group
matches where its mask and the configured one have a flag in common (R119, R120, R139, R140, R142, R143, R146, R156). -/
def Obligations.CuesFireAndAreRecorded : Prop :=
  (∀ (s : State) (e : CueEntry) (rest : List CueEntry), s.resetting = none → s.timer.counted = true →
    s.watched = e :: rest → e.due = s.timer.clock →
    let due := s.watched.filter fun x => decide (x.due = s.timer.clock)
    let fires : CueEntry → Bool := fun x => decide (x.state = .pending) && s.inGroup x.mask
    let before : Fin 4 → LineState := fun n =>
      if (s.firing.lines[n]).ending then .idle else (s.firing.lines[n]).state
    ∃ t, exec .cueFallsDue s = .next t ∧ t = { s with firing := t.firing, power := t.power } ∧
      t.firing.reports = s.firing.reports ++ due.map (fun x =>
        { origin := x.origin, seq := x.seq, lateness := 0
          outcome := if x.state = .withdrawn then .withdrawn else if fires x then .fired else .skipped }) ∧
      t.power = (if s.power.state = .doze then
        { s.power with state := .starting, wake := none, lastCause := .firing, startAge := 0 }
        else s.power) ∧
      ∀ n : Fin 4, t.firing.lines[n] = { s.firing.lines[n] with
        ending := false
        state := (due.filter fun x => fires x && decide (x.line = n)).foldl
          (fun l x => applyAction x.action x.width.toNat l) (before n) }) ∧
  (∀ s : State, (s.timer.counted = false ∨
      ∀ e rest, s.watched = e :: rest → e.due ≠ s.timer.clock) →
    exec .cueFallsDue s = .next s) ∧
  (∀ (s : State) (r : FiringReport) (rest : List FiringReport), s.Awake → s.firing.reports = r :: rest →
    exec .recordFiringReport s = .next
      { s with
        firing := { s.firing with reports := rest }
        cues := { s.cues with entries := s.cues.entries.map fun e =>
          if e.origin = r.origin ∧ e.seq = r.seq then
            { e with state := .retired (match r.outcome with
              | .fired => .fired
              | .skipped => .skipped
              | .withdrawn => .withdrawn) }
          else e }
        port := { s.port with
          events := if r.outcome = .fired then
            appendEvent s.port.events ⟨.cueFired r.origin r.seq r.lateness, s.timer.clock⟩
          else s.port.events } }) ∧
  (∀ s : State, (s.power.state ≠ .awake ∨ s.firing.reports = []) →
    exec .recordFiringReport s = .next s) ∧
  (∀ s : State, s.Awake →
    runRows (List.replicate s.firing.reports.length .recordFiringReport) s = .next s.recordReports ∧
    ∃ m, exec .cueFallsDue s = .next m ∧ s.settleCues = m.recordReports) ∧
  (∀ s : State, s.watched = s.cues.entries.filter fun e =>
    decide ((e.state = .pending ∨ e.state = .withdrawn) ∧
      ∀ r ∈ s.firing.reports, ¬ (r.origin = e.origin ∧ r.seq = e.seq))) ∧
  (∀ (s : State) (e : CueEntry) (rest : List CueEntry), s.CuesInOrder → s.watched = e :: rest →
    ∀ x ∈ rest, instantDiff s.L e.due x.due ≤ 0) ∧
  (∀ (s : State) (mask : Byte), s.inGroup mask = true ↔
    ∃ (c : ConfigRecord) (g : Fin 8), s.port.config = some c ∧
      c.mask.getLsbD g.val = true ∧ mask.getLsbD g.val = true)

/-- The action table of R141, an action changing no other line. PULSE_END takes a line whose count would reach 0 to
IDLE and leaves every other line as it is. That such a line stands marked, IDLE to its pin and to every action, from the
start of that LF period until its row comes is log 23; a pulse of width w is active for exactly w LF periods (R141,
R142). -/
def Obligations.LinesFollowTheActionTable : Prop :=
  (∀ (w r : Nat) (l : LineState),
    applyAction .pulse w .idle = .pulsing w ∧ applyAction .pulse w (.pulsing r) = .pulsing (max r w) ∧
    applyAction .pulse w .held = .held ∧ applyAction .on w l = .held ∧ applyAction .off w l = .idle ∧
    applyAction .toggle w .idle = .held ∧ applyAction .toggle w (.pulsing r) = .idle ∧
    applyAction .toggle w .held = .idle) ∧
  (∀ (u : FiringUnit) (n j : Fin 4) (f : ActionLine → ActionLine),
    (u.updLine n f).lines[j] = if j = n then f u.lines[n] else u.lines[j]) ∧
  (∀ (s : State) (n : Fin 4), ∃ t, exec (.pulseEnd n) s = .next t ∧
    t = { s with firing := t.firing } ∧ t.firing.reports = s.firing.reports ∧
    ∀ j : Fin 4, t.firing.lines[j] =
      if j = n ∧ (s.firing.lines[n]).ending = true then
        { s.firing.lines[n] with state := .idle, ending := false }
      else s.firing.lines[j]) ∧
  ∀ (l : ActionLine) (w n : Nat), 1 ≤ w → l.state = .pulsing w → l.ending = false →
    (ActionLine.countDown^[n] l).now = if n < w then .pulsing (w - n) else .idle

/-- The pins. ACTn is low in a cold reset, and else at its line's active level while the line is PULSING or HELD and its
count would not reach 0 in this LF period (log 23), the active level being low with the polarity bit set. IRTX sinks 100
or 50 mA, as configured, in a half-cell with a burst of the frame being SENT while AWAKE, and is high impedance
otherwise. ATTN is high exactly while an event or a response is held and no cold reset is in progress; SDO is driven
exactly while SELn is low and none is (R26, R138, R142, R159, R165, R176). -/
def Obligations.PinsShowTheState : Prop :=
  (∀ (s : State) (n : Fin 4), s.actPin n =
    if s.resetting ≠ none then false
    else if (s.firing.lines[n]).state = .idle ∨ (s.firing.lines[n]).ending = true
    then (s.firing.lines[n]).activeLow else !(s.firing.lines[n]).activeLow) ∧
  (∀ (s : State) (f : OutFrame) (n : Nat) (h : HalfCell), s.Awake → s.line.tx = .sending f n h →
    s.irtxMilliamps =
      if (emissionHalves f.bytes)[n]? = some true then
        if ∃ c, s.port.config = some c ∧ c.current = 1 then 100 else 50
      else 0) ∧
  (∀ s : State, (s.resetting ≠ none ∨ s.power.state ≠ .awake ∨ ∀ f n h, s.line.tx ≠ .sending f n h) →
    s.irtxMilliamps = 0) ∧
  (∀ s : State, s.attnPin = true ↔
    s.resetting = none ∧ (s.port.events ≠ [] ∨ s.port.response ≠ none)) ∧
  (∀ s : State, s.sdoDriven = true ↔ s.resetting = none ∧ s.port.selected = true)

/-! ## Power controller (chapter 10) -/

/-- ENTER_DOZE: AWAKE, doze permitted and no HF request raised, a station in READY dozes with no wake instant, and
one in BACKOFF, TENTATIVE, SETTLED or LEAVING dozes when the next need lies more than 128 PU ahead, to wake 64 PU
before it; the dozed flag is set. Otherwise nothing happens. The bar is that of the present round, also in the LF period
of a round wrap that is still due. The next need is the nearest opening of a planned window, less than one round ahead: a
slot that is not VACANT, and in a full-listen round any slot. A request is raised by a frame PENDING or SENDING, a
receiver that is not DISARMED, an open window, a reception or item that waits, a report held, a transaction in progress
and a command taken (R31, R37, R66, R120, R126, R150 to R153, R161). -/
def Obligations.DozeIsEnteredBetweenNeeds : Prop :=
  let barred : State → Bool := fun s =>
    if s.timer.due = some .roundWrap then decide (s.timer.clock.round.toNat % 16 = 0) else s.power.fullListenBar
  (∀ (s : State) (c : ConfigRecord), s.Awake → s.port.config = some c → c.doze ≠ 0 →
    barred s = false → s.hfRequest = false →
    (s.member.station = .ready → exec .enterDoze s = .next
      { s with power := { s.power with state := .doze, wake := none, dozed := true } }) ∧
    (∀ n, s.member.station = .backoff ∨ s.member.station = .tentative ∨ s.member.station = .settled ∨
        s.member.station = .leaving → s.nextNeed = some n →
      exec .enterDoze s = .next
        (if 128 < n then
          { s with power := { s.power with
              state := .doze, dozed := true
              wake := some (instantAdd s.L s.timer.clock ((n : Int) - 64)) } }
         else s))) ∧
  (∀ s : State, (s.power.state ≠ .awake ∨ s.hfRequest = true ∨ barred s = true ∨
      s.port.config = none ∨ (∃ c, s.port.config = some c ∧ c.doze = 0) ∨
      s.member.station = .unconfigured ∨ s.member.station = .survey ∨ s.member.station = .claiming) →
    exec .enterDoze s = .next s) ∧
  (∀ (s : State) (n : Nat), s.nextNeed = some n ↔
    (∃ k, s.needOf k = some n) ∧ ∀ k n', s.needOf k = some n' → n ≤ n') ∧
  (∀ (s : State) (k : Slot) (n : Nat), s.ClockOk →
    let opening := instantAdd s.L s.timer.clock n
    let round := if k.val = 0 then opening.round + 1 else opening.round
    (s.needOf k = some n ↔ n < s.L ∧
      (s.timer.clock.phase + n) % s.L = (if k.val = 0 then s.L - 64 else k.val * s.S - 64) ∧
      (round.toNat % 16 = 0 ∨ s.member.kind k ≠ .vacant))) ∧
  ∀ s : State, s.hfRequest = true ↔
    s.line.tx ≠ .idle ∨ s.line.rx ≠ .disarmed ∨ s.line.window ≠ none ∨ s.frame.waiting ≠ [] ∨
    s.frame.items ≠ [] ∨ s.firing.reports ≠ [] ∨ s.port.selected = true ∨ s.port.taken ≠ []

/-- WAKE_PLAN: a dozing station whose clock reaches the wake instant by counting is STARTING with cause PLAN.
HF_STABLE: a STARTING station is AWAKE with an empty line unit, ARMED in SURVEY, and, in the five states with a
plan, with a planned window open whose opening phase has passed and whose close phase has not, also one that did not open
there though the station was AWAKE (log 37); what IRRX shows in this LF period stands, a burst in it counting for the
history when the period ends (log 31). Otherwise nothing happens (R19, R20, R28, R31, R149, R154). -/
def Obligations.StationWakesAndTakesUpItsWindow : Prop :=
  (∀ s : State, s.resetting = none → s.power.state = .doze → s.timer.counted = true →
    s.power.wake = some s.timer.clock →
    exec .wakePlan s = .next
      { s with power := { s.power with
          state := .starting, wake := none, lastCause := .plan, startAge := 0 } }) ∧
  (∀ s : State, (s.power.state ≠ .doze ∨ s.timer.counted = false ∨
      s.power.wake ≠ some s.timer.clock) → exec .wakePlan s = .next s) ∧
  (∀ s : State, s.resetting = none → s.power.state = .starting → s.ClockOk →
    let phase := s.timer.clock.phase
    let inside : Slot → Prop := fun k =>
      if k.val = 0 then s.L - 64 ≤ phase ∨ phase < 3 * (s.S / 4) + 53
      else k.val * s.S - 64 ≤ phase ∧
        phase < if k.val < 4 then k.val * s.S + 3 * (s.S / 4) + 53 else k.val * s.S + 53
    let round : Slot → Round := fun k =>
      if k.val = 0 ∧ s.L - 64 ≤ phase then s.timer.clock.round + 1 else s.timer.clock.round
    let planned : Slot → Prop := fun k => (round k).toNat % 16 = 0 ∨ s.member.kind k ≠ .vacant
    ∃ t, exec .hfStable s = .next t ∧
      t = { s with power := { s.power with state := .awake }, line := t.line } ∧
      t.line = { s.line with tx := .idle, rx := t.line.rx, window := t.line.window, history := [] } ∧
      (s.member.station = .survey → t.line.window = none ∧ t.line.rx = .armed []) ∧
      (s.member.station = .unconfigured ∨ s.member.station = .ready →
        t.line.window = none ∧ t.line.rx = .disarmed) ∧
      (s.member.station.inCell = true →
        (∀ k, inside k → planned k → t.line.rx = .armed [] ∧
          t.line.window =
            some { slot := k, round := round k, marker := false, transmitted := false }) ∧
        ((∀ k, ¬ (inside k ∧ planned k)) → t.line.window = none ∧ t.line.rx = .disarmed))) ∧
  (∀ s : State, s.power.state ≠ .starting → exec .hfStable s = .next s)

/-! ## Host port (chapter 11) -/

/-- The transactions on SELn, a row being a whole one or the part of one that has passed (log 15). SELN_ASSERTED raises
the port's request and wakes a dozing station; a transaction not seen to begin begins with its own row. COMMAND_TAKEN
with some whole byte: the record is taken as judged while fewer than 4 are held, and is else discarded with the lost mark
set, filler on SDO in every bit clocked; with no whole byte it has no effect; with the FETCH code first it is a FETCH. FETCH
takes the response buffer's record, or NONE, and empties the buffer; the bits clocked are those of the record's bytes, each
from bit 7 to bit 0, also where they end within a byte, then filler; a FETCH not yet released goes on with what is left, to
the COMMAND_TAKEN that releases SELn, and takes no other FETCH (R154, R155, R159, R161, R163, R164). -/
def Obligations.TransactionsOnTheHostPort : Prop :=
  let shifted : List Bool → Nat → List Bool := fun bits n => (List.range n).map fun i => (bits[i]?).getD false
  (∀ s : State, s.resetting = none → exec .selnAsserted s = .next
    { s with
      port := { s.port with selected := true }
      power := if s.power.state = .doze then
        { s.power with state := .starting, wake := none, lastCause := .host, startAge := 0 }
        else s.power }) ∧
  (∀ s : State, s.resetting ≠ none → exec .selnAsserted s = .next s) ∧
  (∀ (s : State) (sdi : List Bool) (clocked : Nat) (released : Bool),
    s.resetting = none → s.port.selected = false → s.port.fetching = none →
    ∃ u, exec .selnAsserted s = .next u ∧ exec (.commandTaken sdi) s = exec (.commandTaken sdi) u ∧
      exec (.fetch ⟨clocked, released⟩) s = exec (.fetch ⟨clocked, released⟩) u) ∧
  (∀ (s : State) (code : Byte) (params : List Byte) (bits : List Bool), s.resetting = none →
    s.port.selected = true → s.port.fetching = none → bits.length < 8 →
    exec (.commandTaken ((code :: params).flatMap byteBits ++ bits)) s =
      if code = 0xF0 then exec (.fetch ⟨8 * params.length + bits.length, true⟩) s
      else .next { s with port := { s.port with
        selected := false
        sdo := List.replicate (8 * (params.length + 1) + bits.length) false
        taken := if s.port.taken.length < 4 then s.port.taken ++ [judgeRecord code params]
          else s.port.taken
        lost := if s.port.taken.length < 4 then s.port.lost else true } }) ∧
  (∀ (s : State) (bits : List Bool), s.resetting = none → s.port.selected = true → s.port.fetching = none →
    bits.length < 8 →
    exec (.commandTaken bits) s = .next { s with port := { s.port with selected := false, sdo := [] } }) ∧
  (∀ (s : State) (clocked : Nat) (released : Bool), s.resetting = none → s.port.selected = true →
    s.port.fetching = none →
    let record := ((match s.port.response with
      | some r => r
      | none => { result := .none, code := 0, lost := false, payload := .none } : Response).bytes).flatMap fun b =>
        [b.getLsbD 7, b.getLsbD 6, b.getLsbD 5, b.getLsbD 4, b.getLsbD 3, b.getLsbD 2, b.getLsbD 1, b.getLsbD 0]
    exec (.fetch ⟨clocked, released⟩) s = .next { s with port := { s.port with
      response := none, sdo := shifted record clocked, selected := !released
      fetching := if released then none else some (record.drop clocked) } }) ∧
  (∀ (s : State) (left bits : List Bool), s.resetting = none → s.port.selected = true →
    s.port.fetching = some left →
    exec (.commandTaken bits) s = .next { s with port := { s.port with
      selected := false, fetching := none, sdo := s.port.sdo ++ shifted left bits.length } }) ∧
  (∀ (s : State) (clocked : Nat) (released : Bool), s.port.fetching ≠ none →
    exec (.fetch ⟨clocked, released⟩) s = .next s)

/-- A response is written: LOST when it replaces one or the lost mark is set, which clears; and the record answered
leaves the taken list (R162, R163). -/
def Sys2Proof.Machine.State.answered (m : State) (rest : List TakenRecord) (result : ResultCode) (code : Byte)
    (payload : Payload) : State :=
  { m with port := { m.port with
      taken := rest
      response := some { result := result, code := code, payload := payload
                         lost := m.port.response.isSome || m.port.lost }
      lost := false } }

/-- A record is judged by its code, its length byte and its length: the record of each of the eleven commands is
well formed and read back whole, an unknown code is unknown whatever follows, and any other record of a known code
is malformed. An unknown or malformed record executes with no effect but its response, which names its opening byte
(R160, R162, R163, R175). -/
def Obligations.RecordsAreJudgedByTheirForm : Prop :=
  (∀ c : HostCommand, judgeRecord c.code (BitVec.ofNat 8 c.params.length :: c.params) = .command c) ∧
  (∀ (code : Byte) (rest : List Byte), code = 0 ∨ 0x0B < code.toNat →
    judgeRecord code rest = .unknown code) ∧
  (∀ (code : Byte) (rest : List Byte), 1 ≤ code.toNat → code.toNat ≤ 0x0B →
    (∀ c : HostCommand, c.code = code → rest ≠ BitVec.ofNat 8 c.params.length :: c.params) →
    judgeRecord code rest = .malformed code) ∧
  (∀ (s : State) (code : Byte) (rest : List TakenRecord), s.Awake →
    s.port.taken = .unknown code :: rest →
    exec .unknownCommand s = .next (s.recordReports.answered rest .unknownCommand code .none)) ∧
  (∀ (s : State) (code : Byte) (rest : List TakenRecord), s.Awake →
    s.port.taken = .malformed code :: rest →
    exec .malformed s = .next (s.recordReports.answered rest .malformed code .none))

/-- The layouts of response, status, cue, peer, slot and event record: the fields in order, numbers of more than one byte most
significant first, signed values in two's complement, an absent id, slot or count as 0 and an absent offset as 0x80, an
unused argument byte as 0 (R175); that bits 7 to 1 of the status record's flags are 0 is log 35. -/
def Obligations.RecordsHaveTheirLayouts : Prop :=
  (∀ r : Response, r.bytes =
    [match r.result with
      | .ok => 0x00 | .none => 0x01 | .wrongState => 0x02 | .badArg => 0x03 | .tooSoon => 0x04 | .tooFar => 0x05
      | .quota => 0x06 | .full => 0x07 | .conflict => 0x08 | .tooLate => 0x09 | .notFound => 0x0A
      | .empty => 0x0B | .locked => 0x0C | .unknownCommand => 0x0D | .malformed => 0x0E,
      r.code, if r.lost then 1 else 0, BitVec.ofNat 8 (r.payload.bytes.length / 256),
      BitVec.ofNat 8 r.payload.bytes.length] ++ r.payload.bytes) ∧
  (∀ p : Payload, p.bytes = (match p with
      | .none => []
      | .seq n => [n]
      | .status r => r.bytes
      | .cue e => e.bytes
      | .peer e => e.bytes
      | .slots t => t.toList.flatMap SlotEntry.bytes
      | .event e => e.bytes) ∧
    p.bytes.length = match p with
      | .none => 0
      | .seq _ => 1
      | .status _ => 23
      | .cue _ => 14
      | .peer _ => 10
      | .slots _ => 288
      | .event _ => 12) ∧
  (∀ r : StatusRecord, r.clock.phase < 2 ^ 24 → r.bytes =
    [match r.station with
      | .unconfigured => 0 | .ready => 1 | .survey => 2 | .claiming => 3 | .tentative => 4 | .settled => 5
      | .backoff => 6 | .leaving => 7] ++
    threeBytes r.clock.round.toNat ++ threeBytes r.clock.phase ++
    [match r.ownSlot with
      | some k => BitVec.ofNat 8 k.val
      | none => 0,
      BitVec.ofNat 8 r.tag.members, r.tag.lowest, BitVec.ofInt 8 r.lastCorrection, BitVec.ofNat 8 r.cues,
      BitVec.ofNat 8 r.ownCount, r.nextSeq, BitVec.ofNat 8 r.events,
      match r.lastCause with
      | .none => 0 | .plan => 1 | .host => 2 | .firing => 3,
      if r.dozed then 1 else 0] ++
    match r.config with
    | some c => [c.id, c.lengthCode, c.mask, c.polarities, c.doze, c.current]
    | none => [0, 0, 0, 0, 0, 0]) ∧
  (∀ e : CueEntry, e.due.phase < 2 ^ 24 → e.bytes =
    [e.origin, e.seq] ++ threeBytes e.due.round.toNat ++ threeBytes e.due.phase ++
    [BitVec.ofNat 8 (e.line.val * 16 + match e.action with
      | .pulse => 1 | .on => 2 | .off => 3 | .toggle => 4),
      e.width, e.mask,
      match e.state with
      | .pending => 0x10 | .withdrawn => 0x20 | .retired .fired => 0x31 | .retired .skipped => 0x32
      | .retired .withdrawn => 0x33 | .retired .missed => 0x34,
      BitVec.ofNat 8 e.forward, if e.own then 1 else 0]) ∧
  (∀ e : PeerEntry, e.bytes =
    [e.id, match e.slot with
      | some k => BitVec.ofNat 8 k.val
      | none => 0,
      match e.state with
      | .claimant => 0 | .tentative => 1 | .settled => 2 | .leaving => 3] ++
    threeBytes e.heard.toNat ++ [BitVec.ofNat 8 e.missed] ++
    match e.report with
    | some r => [BitVec.ofInt 8 r.offset, r.members, r.lowest]
    | none => [0x80, 0, 0]) ∧
  (∀ e : SlotEntry, e.bytes =
    (match e.kind with
      | .openSlot => [0, 0] ++ threeBytes 0
      | .vacant => [1, 0] ++ threeBytes 0
      | .claimed h r => [2, h] ++ threeBytes r.toNat
      | .occupied h => [3, h] ++ threeBytes 0
      | .own => [4, 0] ++ threeBytes 0) ++
    [match e.outcome with
      | .unheard => 0 | .clean => 1 | .garbled => 2 | .silent => 3] ++ threeBytes e.outcomeRound.toNat) ∧
  ∀ e : EventRecord, e.clock.phase < 2 ^ 24 →
    let slot : Option Slot → Byte := fun
      | some k => BitVec.ofNat 8 k.val
      | none => 0
    let parts : Byte × List Byte := match e.kind with
      | .resetDone cause => (0x01, [if cause = .resetLine then 1 else 0, 0, 0, 0, 0])
      | .restarted => (0x02, [0, 0, 0, 0, 0])
      | .aligned r cleared n =>
        (0x03, threeBytes r.toNat ++ [if cleared then 1 else 0, BitVec.ofNat 8 n])
      | .founded => (0x04, [0, 0, 0, 0, 0])
      | .joined k => (0x05, [slot (some k), 0, 0, 0, 0])
      | .strike k reporter => (0x06, [slot (some k), if reporter = none then 0 else 1, reporter.getD 0, 0, 0])
      | .yielded k => (0x07, [slot (some k), 0, 0, 0, 0])
      | .cellFull => (0x08, [0, 0, 0, 0, 0])
      | .left => (0x09, [0, 0, 0, 0, 0])
      | .cellMoved members lowest => (0x0A, [members, lowest, 0, 0, 0])
      | .peerNew id k => (0x0B, [id, slot k, 0, 0, 0])
      | .peerLost id k reason => (0x0C, [id, slot k, if reason = .left then 1 else 0, 0, 0])
      | .cueFired origin n late => (0x0D, [origin, n, BitVec.ofNat 8 late, 0, 0])
      | .cueMissed origin n => (0x0E, [origin, n, 0, 0, 0])
      | .cueRefused origin n => (0x0F, [origin, n, 0, 0, 0])
      | .cueEvicted origin n => (0x10, [origin, n, 0, 0, 0])
      | .cueConflict origin n => (0x11, [origin, n, 0, 0, 0])
      | .overflow n => (0x12, [BitVec.ofNat 8 n, 0, 0, 0, 0])
    e.bytes = [parts.1] ++ threeBytes e.clock.round.toNat ++ threeBytes e.clock.phase ++ parts.2

/-! ## Host commands (chapters 5, 7 and 11). While AWAKE, the oldest taken record executes after every held firing
report has been recorded, and, where the command reads the cue table, after what has fallen due is settled (R120,
R162). -/

/-- The record of command `c` is the oldest taken one, and the HF domain is AWAKE. -/
def Sys2Proof.Machine.State.Executes (s : State) (c : HostCommand) (rest : List TakenRecord) : Prop :=
  s.Awake ∧ s.port.taken = .command c :: rest

/-- CONFIGURE: LOCKED with the lock set; BAD_ARG for an id of 0 or 255, a length code above 3 or a current above 1,
with nothing changed; else OK: the record is stored and the lock set, L taken from the code, the LFSR seeded, the
polarities set, and the station in READY. That an announcement the old grid made due in this LF period stays due is log 36
(R2, R68, R71, R138, R166). -/
def Obligations.ConfigureOnceOnly : Prop :=
  ∀ (s : State) (c : ConfigRecord) (rest : List TakenRecord), s.Executes (.configure c) rest →
    let m := s.recordReports
    (s.port.locked = true → exec .configure s = .next (m.answered rest .locked 0x01 .none)) ∧
    (s.port.locked = false →
      (c.id = 0 ∨ c.id = 255 ∨ 3 < c.lengthCode.toNat ∨ 1 < c.current.toNat →
        exec .configure s = .next (m.answered rest .badArg 0x01 .none)) ∧
      (c.id ≠ 0 → c.id ≠ 255 → c.lengthCode.toNat ≤ 3 → c.current.toNat ≤ 1 →
        ∃ u, exec .configure s = .next (State.answered u rest .ok 0x01 .none) ∧
          u = { m with
            port := { m.port with config := some c, locked := true }
            member := { m.member with station := .ready, lfsr := u.member.lfsr }
            timer := { m.timer with lengthCode := u.timer.lengthCode }
            firing := u.firing } ∧
          u.L = 16384 * 2 ^ c.lengthCode.toNat ∧
          (let seed := BitVec.ofNat 16 (c.id.toNat * 257) ^^^ BitVec.ofNat 16 s.timer.clock.phase
           u.member.lfsr = if seed = 0 then 1 else seed) ∧
          u.firing.reports = m.firing.reports ∧
          ∀ n : Fin 4, u.firing.lines[n] =
            { m.firing.lines[n] with activeLow := c.polarities.getLsbD n.val }))

/-- START takes READY to SURVEY with the clock as entry instant and the receiver armed. LEAVE takes SURVEY, CLAIMING
and BACKOFF to READY with LEFT, and TENTATIVE and SETTLED to LEAVING with the slot kept. RESTART takes every state
but UNCONFIGURED to READY with RESTARTED. On the way to READY what has fallen due is settled first. All are OK, and
WRONG_STATE with nothing changed elsewhere (R71, R88, R91, R147, R167). -/
def Obligations.StartLeaveRestart : Prop :=
  (∀ (s : State) (rest : List TakenRecord), s.Executes .start rest →
    let m := s.recordReports
    (s.member.station = .ready → exec .start s = .next (State.answered
      { m with
        member := { m.member.clearItems with station := .survey, surveyEntry := some s.timer.clock }
        line := { m.line with rx := match m.line.rx with
          | .disarmed => .armed []
          | other => other } } rest .ok 0x02 .none)) ∧
    (s.member.station ≠ .ready → exec .start s = .next (m.answered rest .wrongState 0x02 .none))) ∧
  (∀ (s : State) (rest : List TakenRecord), s.Executes .leave rest →
    let m := s.recordReports
    (s.member.station = .survey ∨ s.member.station = .claiming ∨ s.member.station = .backoff →
      ∃ u, exec .leave s = .next (State.answered u rest .ok 0x03 .none) ∧
        State.EntersReady m u ∧ u.sync = SyncUnit.reset ∧ u.timer = s.timer ∧
        u.port = { m.port with
          events := appendEvent m.settleCues.port.events ⟨.left, s.timer.clock⟩ }) ∧
    (s.member.station = .tentative ∨ s.member.station = .settled →
      exec .leave s = .next (State.answered
        { m with member := { m.member.clearItems with
            station := .leaving, ownSlot := m.member.ownSlot } } rest .ok 0x03 .none)) ∧
    (s.member.station = .unconfigured ∨ s.member.station = .ready ∨ s.member.station = .leaving →
      exec .leave s = .next (m.answered rest .wrongState 0x03 .none))) ∧
  (∀ (s : State) (rest : List TakenRecord), s.Executes .restart rest →
    let m := s.recordReports
    (s.member.station ≠ .unconfigured →
      ∃ u, exec .restart s = .next (State.answered u rest .ok 0x04 .none) ∧
        State.EntersReady m u ∧ u.sync = SyncUnit.reset ∧ u.timer = s.timer ∧
        u.port = { m.port with
          events := appendEvent m.settleCues.port.events ⟨.restarted, s.timer.clock⟩ }) ∧
    (s.member.station = .unconfigured →
      exec .restart s = .next (m.answered rest .wrongState 0x04 .none)))

/-- POST: WRONG_STATE outside SETTLED; then the first failing check of R110 gives BAD_ARG, TOO_SOON, TOO_FAR or QUOTA
with nothing changed, the lead check taken by its difference, so that from 2^23 rounds ahead on it is passed or not as
that difference turns over (log 33); past them the next sequence number is the key's and advances: CONFLICT if the key is
held, FULL if no room can be made, else the PENDING own entry is inserted and the answer is OK, each with the number.
WITHDRAW: WRONG_STATE in UNCONFIGURED and READY; else, for the entry of this station's id and the number named, PENDING
becomes WITHDRAWN with forward count 0 and OK, WITHDRAWN is OK, RETIRED is TOO_LATE, and none held is NOT_FOUND (R109 to
R112). -/
def Obligations.PostAndWithdrawAnswerByTheTable : Prop :=
  (∀ (s : State) (p : PostParams) (rest : List TakenRecord), s.Executes (.post p) rest →
    let m := s.settleCues
    let due : Instant := ⟨p.dueRound, p.duePhase.toNat⟩
    let lead := instantDiff s.L due (instantAddRounds s.timer.clock 2)
    let horizon := instantDiff s.L due (instantAddRounds s.timer.clock 4096)
    let n := m.cues.nextSeq
    let passed : State := { m with cues := { m.cues with nextSeq := n + 1 } }
    (s.member.station ≠ .settled →
      exec .post s = .next (m.answered rest .wrongState 0x05 .none)) ∧
    (s.member.station = .settled →
      (4 ≤ p.line.toNat ∨ p.action = 0 ∨ 4 < p.action.toNat ∨ p.mask = 0 ∨
          p.action = 1 ∧ p.width = 0 ∨ s.L ≤ p.duePhase.toNat →
        exec .post s = .next (m.answered rest .badArg 0x05 .none)) ∧
      (∀ (line : Fin 4) (action : Action), p.line.toNat = line.val → p.action.toNat = action.code →
        p.mask ≠ 0 → (action = .pulse → p.width ≠ 0) → p.duePhase.toNat < s.L →
        let entry : CueEntry :=
          { origin := s.ownId, seq := n, due := due, line := line, action := action
            width := p.width, mask := p.mask, state := .pending, forward := 0, own := true }
        (lead < 0 → exec .post s = .next (m.answered rest .tooSoon 0x05 .none)) ∧
        (0 ≤ lead → 0 < horizon → exec .post s = .next (m.answered rest .tooFar 0x05 .none)) ∧
        (0 ≤ lead → horizon ≤ 0 → 8 ≤ ownCount m.cues.entries →
          exec .post s = .next (m.answered rest .quota 0x05 .none)) ∧
        (0 ≤ lead → horizon ≤ 0 → ownCount m.cues.entries < 8 →
          ((∃ e ∈ m.cues.entries, e.origin = s.ownId ∧ e.seq = n) →
            exec .post s = .next (passed.answered rest .conflict 0x05 (.seq n))) ∧
          ((∀ e ∈ m.cues.entries, ¬ (e.origin = s.ownId ∧ e.seq = n)) →
            match makeRoom s.L s.timer.clock due m.cues.entries with
            | none => exec .post s = .next (passed.answered rest .full 0x05 (.seq n))
            | some (room, events) => exec .post s = .next (State.answered
                { passed with
                  cues := { passed.cues with entries := insertCue s.L entry room }
                  port := { m.port with
                    events := (events.map fun k => ⟨k, s.timer.clock⟩).foldl appendEvent
                      m.port.events } }
                rest .ok 0x05 (.seq n))))))) ∧
  (∀ (s : State) (n : Byte) (rest : List TakenRecord), s.Executes (.withdraw n) rest →
    let m := s.recordReports
    let held := m.cues.entries.find? fun e => decide (e.origin = s.ownId ∧ e.seq = n)
    (s.member.station = .unconfigured ∨ s.member.station = .ready →
      exec .withdraw s = .next (m.answered rest .wrongState 0x06 .none)) ∧
    (s.member.station ≠ .unconfigured → s.member.station ≠ .ready →
      (held = none → exec .withdraw s = .next (m.answered rest .notFound 0x06 .none)) ∧
      ∀ e, held = some e →
        (e.state = .pending → exec .withdraw s = .next (State.answered
          { m with cues := { m.cues with entries := m.cues.entries.map fun x =>
              if x.origin = s.ownId ∧ x.seq = n then { x with state := .withdrawn, forward := 0 }
              else x } } rest .ok 0x06 .none)) ∧
        (e.state = .withdrawn → exec .withdraw s = .next (m.answered rest .ok 0x06 .none)) ∧
        (∀ reason, e.state = .retired reason →
          exec .withdraw s = .next (m.answered rest .tooLate 0x06 .none))))

/-- The reads are snapshots: READ_STATUS gives the status record and clears the dozed flag; READ_CUE and READ_PEER
give the entry at the index, EMPTY beyond the last and BAD_ARG above 23 and 27; READ_SLOTS gives all 32 entries;
TAKE_EVENT removes and gives the oldest event, or EMPTY. READ_STATUS and READ_CUE read the table once what has fallen due
is settled: where no watched entry lies behind the clock, and the clock was counted to one that lies at it, they find no
entry PENDING or WITHDRAWN whose instant the clock has reached. Nothing else changes (R120, R157, R168 to R170). -/
def Obligations.ReadsAreSnapshots : Prop :=
  (∀ (s : State) (rest : List TakenRecord), s.Executes .readStatus rest →
    let m := s.settleCues
    exec .readStatus s = .next (State.answered
      { m with power := { m.power with dozed := false } } rest .ok 0x07 (.status
        { station := s.member.station, clock := s.timer.clock, ownSlot := s.member.ownSlot, tag := s.tag
          lastCorrection := s.sync.lastCorrection, cues := m.cues.entries.length
          ownCount := (m.cues.entries.filter fun e => e.own && !e.isRetired).length
          nextSeq := s.cues.nextSeq, events := m.port.events.length, lastCause := s.power.lastCause
          dozed := s.power.dozed, config := s.port.config }))) ∧
  (∀ (s : State) (rest : List TakenRecord) (i : Byte), s.Executes (.readCue i) rest →
    let m := s.settleCues
    (23 < i.toNat → exec .readCue s = .next (m.answered rest .badArg 0x08 .none)) ∧
    (∀ e, i.toNat ≤ 23 → m.cues.entries[i.toNat]? = some e →
      exec .readCue s = .next (m.answered rest .ok 0x08 (.cue e))) ∧
    (i.toNat ≤ 23 → m.cues.entries.length ≤ i.toNat →
      exec .readCue s = .next (m.answered rest .empty 0x08 .none))) ∧
  (∀ (s : State) (rest : List TakenRecord) (i : Byte), s.Executes (.readPeer i) rest →
    let m := s.recordReports
    (27 < i.toNat → exec .readPeer s = .next (m.answered rest .badArg 0x09 .none)) ∧
    (∀ e, i.toNat ≤ 27 → s.member.peers[i.toNat]? = some e →
      exec .readPeer s = .next (m.answered rest .ok 0x09 (.peer e))) ∧
    (i.toNat ≤ 27 → s.member.peers.length ≤ i.toNat →
      exec .readPeer s = .next (m.answered rest .empty 0x09 .none))) ∧
  (∀ (s : State) (rest : List TakenRecord), s.Executes .readSlots rest →
    exec .readSlots s = .next (s.recordReports.answered rest .ok 0x0A (.slots s.member.slots))) ∧
  (∀ (s : State) (rest : List TakenRecord), s.Executes .takeEvent rest →
    let m := s.recordReports
    (m.port.events = [] → exec .takeEvent s = .next (m.answered rest .empty 0x0B .none)) ∧
    (∀ e events, m.port.events = e :: events → exec .takeEvent s = .next (State.answered
      { m with port := { m.port with events := events } } rest .ok 0x0B (.event e)))) ∧
  (∀ s : State, s.Awake → s.ClockOk → s.CuesInOrder →
    (∀ e ∈ s.watched, 0 ≤ instantDiff s.L e.due s.timer.clock ∧ (e.due = s.timer.clock → s.timer.counted = true)) →
    ∀ e ∈ s.settleCues.cues.entries, e.state = .pending ∨ e.state = .withdrawn →
      0 < instantDiff s.L e.due s.timer.clock)

/-! ## Invariants -/

/-- The phase stays below L, lock, configuration, station state and L agree, and a configured LFSR stays nonzero
(R1, R2, R68, R71, R166). -/
def Obligations.ClockAndConfigurationStayLegal : Prop :=
  ∀ s t : State, s.ClockOk → s.ConfigOk → s.LfsrOk → step s = .next t →
    t.ClockOk ∧ t.ConfigOk ∧ t.LfsrOk

/-- The event queue holds at most 16 records with OVERFLOW only as the newest, and the taken list at most 4. An event
queued counts into an OVERFLOW that is the newest record, up to 255, is appended where fewer than 15 records are held, and
is else turned into an OVERFLOW with count 1 (R161, R171). -/
def Obligations.EventQueueAndTakenListStayBounded : Prop :=
  (∀ s t : State, s.PortOk → step s = .next t → t.PortOk) ∧
  (∀ (events : List EventRecord) (n : Nat) (clock : Instant) (e : EventRecord),
    appendEvent (events ++ [⟨.overflow n, clock⟩]) e = events ++ [⟨.overflow (min 255 (n + 1)), clock⟩]) ∧
  ∀ (events : List EventRecord) (e : EventRecord),
    (∀ n clock, events.getLast? ≠ some ⟨.overflow n, clock⟩) →
    appendEvent events e =
      if events.length < 15 then events ++ [e] else events ++ [⟨.overflow 1, e.clock⟩]

/-- The cue table holds at most 24 entries, no two with one key, within the own quota and the forward limits, and
every PULSE and every pulsing line has a count from 1 to 255 (R36, R106 to R108, R131, R137). -/
def Obligations.CueTableStaysBounded : Prop :=
  ∀ s t : State, s.CuesOk → s.LinesOk → step s = .next t → t.CuesOk ∧ t.LinesOk

/-- The cue table stays in strictly increasing order of due instant, origin id and sequence number, as READ_CUE shows it
and room is made by (log 28), with every due phase below L. Premises rule out states no run reaches: a phase of L or
above, due rounds 2^20 and more from the clock, and a table held before CONFIGURE gives the round length (R2, R36, R71,
R106, R107). -/
def Obligations.CueTableStaysInOrder : Prop :=
  ∀ s t : State, s.ClockOk → s.ConfigOk → s.CuesInOrder → s.CuesNear → s.SilentBeforeConfigure →
    step s = .next t → t.CuesInOrder ∧ t.SilentBeforeConfigure

/-- Slots 0 to 3 and no others are OPEN, a slot is OWN exactly while it is the own slot of a TENTATIVE, SETTLED or
LEAVING station, and targets are claimable slots (R51, R70). -/
def Obligations.SlotTableStaysLegal : Prop :=
  ∀ s t : State, s.ConfigOk → s.member.SlotsOk → step s = .next t → t.member.SlotsOk

/-- At most 28 peers in ascending order with missed counts below 4, at most 28 samples one an id, a last correction
from −8 to +8, a backoff of at most 8 and fewer than 4 tries (R59, R63, R70, R93, R95). -/
def Obligations.PeersAndSamplesStayBounded : Prop :=
  ∀ s t : State, s.member.PeersOk → s.sync.Ok → s.member.CountsOk → step s = .next t →
    t.member.PeersOk ∧ t.sync.Ok ∧ t.member.CountsOk

/-- All of these invariants, and the premises of the cue table's order, hold right after reset. -/
def Obligations.InvariantsHoldAtReset : Prop :=
  State.reset.ClockOk ∧ State.reset.ConfigOk ∧ State.reset.LfsrOk ∧ State.reset.PortOk ∧
  State.reset.CuesOk ∧ State.reset.LinesOk ∧ State.reset.CuesInOrder ∧ State.reset.CuesNear ∧
  State.reset.SilentBeforeConfigure ∧ State.reset.member.SlotsOk ∧ State.reset.member.PeersOk ∧
  State.reset.sync.Ok ∧ State.reset.member.CountsOk
end

