-- ==== Sys2Proof/Laws/State.lean ====
section
/-! SUPPORT. What each one-block update changes and leaves: one lemma per field. -/

namespace Sys2Proof.Machine

@[simp] theorem State.updTimer_timer (f : RoundTimer → RoundTimer) (s : State) : (s.updTimer f).timer = f s.timer := rfl
@[simp] theorem State.updTimer_line (f : RoundTimer → RoundTimer) (s : State) : (s.updTimer f).line = s.line := rfl
@[simp] theorem State.updTimer_frame (f : RoundTimer → RoundTimer) (s : State) : (s.updTimer f).frame = s.frame := rfl
@[simp] theorem State.updTimer_member (f : RoundTimer → RoundTimer) (s : State) : (s.updTimer f).member = s.member := rfl
@[simp] theorem State.updTimer_sync (f : RoundTimer → RoundTimer) (s : State) : (s.updTimer f).sync = s.sync := rfl
@[simp] theorem State.updTimer_cues (f : RoundTimer → RoundTimer) (s : State) : (s.updTimer f).cues = s.cues := rfl
@[simp] theorem State.updTimer_firing (f : RoundTimer → RoundTimer) (s : State) : (s.updTimer f).firing = s.firing := rfl
@[simp] theorem State.updTimer_power (f : RoundTimer → RoundTimer) (s : State) : (s.updTimer f).power = s.power := rfl
@[simp] theorem State.updTimer_port (f : RoundTimer → RoundTimer) (s : State) : (s.updTimer f).port = s.port := rfl
@[simp] theorem State.updTimer_resetting (f : RoundTimer → RoundTimer) (s : State) : (s.updTimer f).resetting = s.resetting := rfl
@[simp] theorem State.updTimer_freeCount (f : RoundTimer → RoundTimer) (s : State) : (s.updTimer f).freeCount = s.freeCount := rfl
@[simp] theorem State.updTimer_pending (f : RoundTimer → RoundTimer) (s : State) : (s.updTimer f).pending = s.pending := rfl

@[simp] theorem State.updLine_timer (f : LineUnit → LineUnit) (s : State) : (s.updLine f).timer = s.timer := rfl
@[simp] theorem State.updLine_line (f : LineUnit → LineUnit) (s : State) : (s.updLine f).line = f s.line := rfl
@[simp] theorem State.updLine_frame (f : LineUnit → LineUnit) (s : State) : (s.updLine f).frame = s.frame := rfl
@[simp] theorem State.updLine_member (f : LineUnit → LineUnit) (s : State) : (s.updLine f).member = s.member := rfl
@[simp] theorem State.updLine_sync (f : LineUnit → LineUnit) (s : State) : (s.updLine f).sync = s.sync := rfl
@[simp] theorem State.updLine_cues (f : LineUnit → LineUnit) (s : State) : (s.updLine f).cues = s.cues := rfl
@[simp] theorem State.updLine_firing (f : LineUnit → LineUnit) (s : State) : (s.updLine f).firing = s.firing := rfl
@[simp] theorem State.updLine_power (f : LineUnit → LineUnit) (s : State) : (s.updLine f).power = s.power := rfl
@[simp] theorem State.updLine_port (f : LineUnit → LineUnit) (s : State) : (s.updLine f).port = s.port := rfl
@[simp] theorem State.updLine_resetting (f : LineUnit → LineUnit) (s : State) : (s.updLine f).resetting = s.resetting := rfl
@[simp] theorem State.updLine_freeCount (f : LineUnit → LineUnit) (s : State) : (s.updLine f).freeCount = s.freeCount := rfl
@[simp] theorem State.updLine_pending (f : LineUnit → LineUnit) (s : State) : (s.updLine f).pending = s.pending := rfl

@[simp] theorem State.updFrame_timer (f : FrameUnit → FrameUnit) (s : State) : (s.updFrame f).timer = s.timer := rfl
@[simp] theorem State.updFrame_line (f : FrameUnit → FrameUnit) (s : State) : (s.updFrame f).line = s.line := rfl
@[simp] theorem State.updFrame_frame (f : FrameUnit → FrameUnit) (s : State) : (s.updFrame f).frame = f s.frame := rfl
@[simp] theorem State.updFrame_member (f : FrameUnit → FrameUnit) (s : State) : (s.updFrame f).member = s.member := rfl
@[simp] theorem State.updFrame_sync (f : FrameUnit → FrameUnit) (s : State) : (s.updFrame f).sync = s.sync := rfl
@[simp] theorem State.updFrame_cues (f : FrameUnit → FrameUnit) (s : State) : (s.updFrame f).cues = s.cues := rfl
@[simp] theorem State.updFrame_firing (f : FrameUnit → FrameUnit) (s : State) : (s.updFrame f).firing = s.firing := rfl
@[simp] theorem State.updFrame_power (f : FrameUnit → FrameUnit) (s : State) : (s.updFrame f).power = s.power := rfl
@[simp] theorem State.updFrame_port (f : FrameUnit → FrameUnit) (s : State) : (s.updFrame f).port = s.port := rfl
@[simp] theorem State.updFrame_resetting (f : FrameUnit → FrameUnit) (s : State) : (s.updFrame f).resetting = s.resetting := rfl
@[simp] theorem State.updFrame_freeCount (f : FrameUnit → FrameUnit) (s : State) : (s.updFrame f).freeCount = s.freeCount := rfl
@[simp] theorem State.updFrame_pending (f : FrameUnit → FrameUnit) (s : State) : (s.updFrame f).pending = s.pending := rfl

@[simp] theorem State.updMember_timer (f : Membership → Membership) (s : State) : (s.updMember f).timer = s.timer := rfl
@[simp] theorem State.updMember_line (f : Membership → Membership) (s : State) : (s.updMember f).line = s.line := rfl
@[simp] theorem State.updMember_frame (f : Membership → Membership) (s : State) : (s.updMember f).frame = s.frame := rfl
@[simp] theorem State.updMember_member (f : Membership → Membership) (s : State) : (s.updMember f).member = f s.member := rfl
@[simp] theorem State.updMember_sync (f : Membership → Membership) (s : State) : (s.updMember f).sync = s.sync := rfl
@[simp] theorem State.updMember_cues (f : Membership → Membership) (s : State) : (s.updMember f).cues = s.cues := rfl
@[simp] theorem State.updMember_firing (f : Membership → Membership) (s : State) : (s.updMember f).firing = s.firing := rfl
@[simp] theorem State.updMember_power (f : Membership → Membership) (s : State) : (s.updMember f).power = s.power := rfl
@[simp] theorem State.updMember_port (f : Membership → Membership) (s : State) : (s.updMember f).port = s.port := rfl
@[simp] theorem State.updMember_resetting (f : Membership → Membership) (s : State) : (s.updMember f).resetting = s.resetting := rfl
@[simp] theorem State.updMember_freeCount (f : Membership → Membership) (s : State) : (s.updMember f).freeCount = s.freeCount := rfl
@[simp] theorem State.updMember_pending (f : Membership → Membership) (s : State) : (s.updMember f).pending = s.pending := rfl

@[simp] theorem State.updSync_timer (f : SyncUnit → SyncUnit) (s : State) : (s.updSync f).timer = s.timer := rfl
@[simp] theorem State.updSync_line (f : SyncUnit → SyncUnit) (s : State) : (s.updSync f).line = s.line := rfl
@[simp] theorem State.updSync_frame (f : SyncUnit → SyncUnit) (s : State) : (s.updSync f).frame = s.frame := rfl
@[simp] theorem State.updSync_member (f : SyncUnit → SyncUnit) (s : State) : (s.updSync f).member = s.member := rfl
@[simp] theorem State.updSync_sync (f : SyncUnit → SyncUnit) (s : State) : (s.updSync f).sync = f s.sync := rfl
@[simp] theorem State.updSync_cues (f : SyncUnit → SyncUnit) (s : State) : (s.updSync f).cues = s.cues := rfl
@[simp] theorem State.updSync_firing (f : SyncUnit → SyncUnit) (s : State) : (s.updSync f).firing = s.firing := rfl
@[simp] theorem State.updSync_power (f : SyncUnit → SyncUnit) (s : State) : (s.updSync f).power = s.power := rfl
@[simp] theorem State.updSync_port (f : SyncUnit → SyncUnit) (s : State) : (s.updSync f).port = s.port := rfl
@[simp] theorem State.updSync_resetting (f : SyncUnit → SyncUnit) (s : State) : (s.updSync f).resetting = s.resetting := rfl
@[simp] theorem State.updSync_freeCount (f : SyncUnit → SyncUnit) (s : State) : (s.updSync f).freeCount = s.freeCount := rfl
@[simp] theorem State.updSync_pending (f : SyncUnit → SyncUnit) (s : State) : (s.updSync f).pending = s.pending := rfl

@[simp] theorem State.updCues_timer (f : CueTable → CueTable) (s : State) : (s.updCues f).timer = s.timer := rfl
@[simp] theorem State.updCues_line (f : CueTable → CueTable) (s : State) : (s.updCues f).line = s.line := rfl
@[simp] theorem State.updCues_frame (f : CueTable → CueTable) (s : State) : (s.updCues f).frame = s.frame := rfl
@[simp] theorem State.updCues_member (f : CueTable → CueTable) (s : State) : (s.updCues f).member = s.member := rfl
@[simp] theorem State.updCues_sync (f : CueTable → CueTable) (s : State) : (s.updCues f).sync = s.sync := rfl
@[simp] theorem State.updCues_cues (f : CueTable → CueTable) (s : State) : (s.updCues f).cues = f s.cues := rfl
@[simp] theorem State.updCues_firing (f : CueTable → CueTable) (s : State) : (s.updCues f).firing = s.firing := rfl
@[simp] theorem State.updCues_power (f : CueTable → CueTable) (s : State) : (s.updCues f).power = s.power := rfl
@[simp] theorem State.updCues_port (f : CueTable → CueTable) (s : State) : (s.updCues f).port = s.port := rfl
@[simp] theorem State.updCues_resetting (f : CueTable → CueTable) (s : State) : (s.updCues f).resetting = s.resetting := rfl
@[simp] theorem State.updCues_freeCount (f : CueTable → CueTable) (s : State) : (s.updCues f).freeCount = s.freeCount := rfl
@[simp] theorem State.updCues_pending (f : CueTable → CueTable) (s : State) : (s.updCues f).pending = s.pending := rfl

@[simp] theorem State.updFiring_timer (f : FiringUnit → FiringUnit) (s : State) : (s.updFiring f).timer = s.timer := rfl
@[simp] theorem State.updFiring_line (f : FiringUnit → FiringUnit) (s : State) : (s.updFiring f).line = s.line := rfl
@[simp] theorem State.updFiring_frame (f : FiringUnit → FiringUnit) (s : State) : (s.updFiring f).frame = s.frame := rfl
@[simp] theorem State.updFiring_member (f : FiringUnit → FiringUnit) (s : State) : (s.updFiring f).member = s.member := rfl
@[simp] theorem State.updFiring_sync (f : FiringUnit → FiringUnit) (s : State) : (s.updFiring f).sync = s.sync := rfl
@[simp] theorem State.updFiring_cues (f : FiringUnit → FiringUnit) (s : State) : (s.updFiring f).cues = s.cues := rfl
@[simp] theorem State.updFiring_firing (f : FiringUnit → FiringUnit) (s : State) : (s.updFiring f).firing = f s.firing := rfl
@[simp] theorem State.updFiring_power (f : FiringUnit → FiringUnit) (s : State) : (s.updFiring f).power = s.power := rfl
@[simp] theorem State.updFiring_port (f : FiringUnit → FiringUnit) (s : State) : (s.updFiring f).port = s.port := rfl
@[simp] theorem State.updFiring_resetting (f : FiringUnit → FiringUnit) (s : State) : (s.updFiring f).resetting = s.resetting := rfl
@[simp] theorem State.updFiring_freeCount (f : FiringUnit → FiringUnit) (s : State) : (s.updFiring f).freeCount = s.freeCount := rfl
@[simp] theorem State.updFiring_pending (f : FiringUnit → FiringUnit) (s : State) : (s.updFiring f).pending = s.pending := rfl

@[simp] theorem State.updPower_timer (f : PowerController → PowerController) (s : State) : (s.updPower f).timer = s.timer := rfl
@[simp] theorem State.updPower_line (f : PowerController → PowerController) (s : State) : (s.updPower f).line = s.line := rfl
@[simp] theorem State.updPower_frame (f : PowerController → PowerController) (s : State) : (s.updPower f).frame = s.frame := rfl
@[simp] theorem State.updPower_member (f : PowerController → PowerController) (s : State) : (s.updPower f).member = s.member := rfl
@[simp] theorem State.updPower_sync (f : PowerController → PowerController) (s : State) : (s.updPower f).sync = s.sync := rfl
@[simp] theorem State.updPower_cues (f : PowerController → PowerController) (s : State) : (s.updPower f).cues = s.cues := rfl
@[simp] theorem State.updPower_firing (f : PowerController → PowerController) (s : State) : (s.updPower f).firing = s.firing := rfl
@[simp] theorem State.updPower_power (f : PowerController → PowerController) (s : State) : (s.updPower f).power = f s.power := rfl
@[simp] theorem State.updPower_port (f : PowerController → PowerController) (s : State) : (s.updPower f).port = s.port := rfl
@[simp] theorem State.updPower_resetting (f : PowerController → PowerController) (s : State) : (s.updPower f).resetting = s.resetting := rfl
@[simp] theorem State.updPower_freeCount (f : PowerController → PowerController) (s : State) : (s.updPower f).freeCount = s.freeCount := rfl
@[simp] theorem State.updPower_pending (f : PowerController → PowerController) (s : State) : (s.updPower f).pending = s.pending := rfl

@[simp] theorem State.updPort_timer (f : HostPort → HostPort) (s : State) : (s.updPort f).timer = s.timer := rfl
@[simp] theorem State.updPort_line (f : HostPort → HostPort) (s : State) : (s.updPort f).line = s.line := rfl
@[simp] theorem State.updPort_frame (f : HostPort → HostPort) (s : State) : (s.updPort f).frame = s.frame := rfl
@[simp] theorem State.updPort_member (f : HostPort → HostPort) (s : State) : (s.updPort f).member = s.member := rfl
@[simp] theorem State.updPort_sync (f : HostPort → HostPort) (s : State) : (s.updPort f).sync = s.sync := rfl
@[simp] theorem State.updPort_cues (f : HostPort → HostPort) (s : State) : (s.updPort f).cues = s.cues := rfl
@[simp] theorem State.updPort_firing (f : HostPort → HostPort) (s : State) : (s.updPort f).firing = s.firing := rfl
@[simp] theorem State.updPort_power (f : HostPort → HostPort) (s : State) : (s.updPort f).power = s.power := rfl
@[simp] theorem State.updPort_port (f : HostPort → HostPort) (s : State) : (s.updPort f).port = f s.port := rfl
@[simp] theorem State.updPort_resetting (f : HostPort → HostPort) (s : State) : (s.updPort f).resetting = s.resetting := rfl
@[simp] theorem State.updPort_freeCount (f : HostPort → HostPort) (s : State) : (s.updPort f).freeCount = s.freeCount := rfl
@[simp] theorem State.updPort_pending (f : HostPort → HostPort) (s : State) : (s.updPort f).pending = s.pending := rfl

end Sys2Proof.Machine
end

