-- ==== Sys2Proof/Laws/Frame.lean ====
section
/-! SUPPORT. What each operation leaves: one lemma an operation. -/

namespace Sys2Proof.Machine

/-- What one turn of a fold leaves, the fold leaves. -/
theorem foldl_field {α β : Type} (g : State → β) {f : State → α → State} (h : ∀ s x, g (f s x) = g s)
    (l : List α) (s : State) : g (l.foldl f s) = g s := by
  induction l generalizing s with
  | nil => rfl
  | cons x xs ih => exact (ih _).trans (h s x)

/-- What one turn of an iteration leaves, the iteration leaves. -/
theorem iterate_field {β : Type} (g : State → β) {f : State → State} (h : ∀ s, g (f s) = g s)
    (n : Nat) (s : State) : g (f^[n] s) = g s := by
  induction n generalizing s with
  | zero => rfl
  | succ n ih => exact (ih _).trans (h s)

@[simp] theorem State.queue_frame (k : EventKind) (s : State) :
    (s.queue k).timer = s.timer ∧ (s.queue k).line = s.line ∧ (s.queue k).frame = s.frame ∧
    (s.queue k).member = s.member ∧ (s.queue k).sync = s.sync ∧ (s.queue k).cues = s.cues ∧
    (s.queue k).firing = s.firing ∧ (s.queue k).power = s.power ∧ (s.queue k).port.config = s.port.config ∧
    (s.queue k).port.locked = s.port.locked ∧ (s.queue k).port.taken = s.port.taken ∧
    (s.queue k).port.response = s.port.response ∧ (s.queue k).port.lost = s.port.lost ∧
    (s.queue k).port.selected = s.port.selected ∧ (s.queue k).port.fetching = s.port.fetching ∧
    (s.queue k).port.sdo = s.port.sdo ∧ (s.queue k).resetting = s.resetting ∧
    (s.queue k).freeCount = s.freeCount ∧ (s.queue k).pending = s.pending := by
  unfold State.queue
  simp

@[simp] theorem State.queueAll_frame (ks : List EventKind) (s : State) :
    (s.queueAll ks).timer = s.timer ∧ (s.queueAll ks).line = s.line ∧ (s.queueAll ks).frame = s.frame ∧
    (s.queueAll ks).member = s.member ∧ (s.queueAll ks).sync = s.sync ∧ (s.queueAll ks).cues = s.cues ∧
    (s.queueAll ks).firing = s.firing ∧ (s.queueAll ks).power = s.power ∧
    (s.queueAll ks).port.config = s.port.config ∧ (s.queueAll ks).port.locked = s.port.locked ∧
    (s.queueAll ks).port.taken = s.port.taken ∧ (s.queueAll ks).port.response = s.port.response ∧
    (s.queueAll ks).port.lost = s.port.lost ∧ (s.queueAll ks).port.selected = s.port.selected ∧
    (s.queueAll ks).port.fetching = s.port.fetching ∧ (s.queueAll ks).port.sdo = s.port.sdo ∧
    (s.queueAll ks).resetting = s.resetting ∧ (s.queueAll ks).freeCount = s.freeCount ∧
    (s.queueAll ks).pending = s.pending := by
  unfold State.queueAll
  simp [foldl_field (fun s : State => s.timer), foldl_field (fun s : State => s.line), foldl_field (fun s : State => s.frame), foldl_field (fun s : State => s.member), foldl_field (fun s : State => s.sync), foldl_field (fun s : State => s.cues), foldl_field (fun s : State => s.firing), foldl_field (fun s : State => s.power), foldl_field (fun s : State => s.port.config), foldl_field (fun s : State => s.port.locked), foldl_field (fun s : State => s.port.taken), foldl_field (fun s : State => s.port.response), foldl_field (fun s : State => s.port.lost), foldl_field (fun s : State => s.port.selected), foldl_field (fun s : State => s.port.fetching), foldl_field (fun s : State => s.port.sdo), foldl_field (fun s : State => s.resetting), foldl_field (fun s : State => s.freeCount), foldl_field (fun s : State => s.pending)]

@[simp] theorem State.losePeer_frame (p : PeerEntry) (reason : LostReason) (s : State) :
    (s.losePeer p reason).timer = s.timer ∧ (s.losePeer p reason).line = s.line ∧
    (s.losePeer p reason).frame = s.frame ∧ (s.losePeer p reason).sync = s.sync ∧
    (s.losePeer p reason).cues = s.cues ∧ (s.losePeer p reason).firing = s.firing ∧
    (s.losePeer p reason).power = s.power ∧ (s.losePeer p reason).port.config = s.port.config ∧
    (s.losePeer p reason).port.locked = s.port.locked ∧ (s.losePeer p reason).port.taken = s.port.taken ∧
    (s.losePeer p reason).port.response = s.port.response ∧ (s.losePeer p reason).port.lost = s.port.lost ∧
    (s.losePeer p reason).port.selected = s.port.selected ∧
    (s.losePeer p reason).port.fetching = s.port.fetching ∧ (s.losePeer p reason).port.sdo = s.port.sdo ∧
    (s.losePeer p reason).resetting = s.resetting ∧ (s.losePeer p reason).freeCount = s.freeCount ∧
    (s.losePeer p reason).pending = s.pending := by
  unfold State.losePeer
  (repeat' split) <;> simp

@[simp] theorem State.rearm_frame (s : State) :
    (s.rearm).timer = s.timer ∧ (s.rearm).frame = s.frame ∧ (s.rearm).member = s.member ∧
    (s.rearm).sync = s.sync ∧ (s.rearm).cues = s.cues ∧ (s.rearm).firing = s.firing ∧
    (s.rearm).power = s.power ∧ (s.rearm).port = s.port ∧ (s.rearm).resetting = s.resetting ∧
    (s.rearm).freeCount = s.freeCount ∧ (s.rearm).pending = s.pending := by
  unfold State.rearm
  (repeat' split) <;> simp

@[simp] theorem State.freeRx_frame (s : State) :
    (s.freeRx).timer = s.timer ∧ (s.freeRx).frame = s.frame ∧ (s.freeRx).member = s.member ∧
    (s.freeRx).sync = s.sync ∧ (s.freeRx).cues = s.cues ∧ (s.freeRx).firing = s.firing ∧
    (s.freeRx).power = s.power ∧ (s.freeRx).port = s.port ∧ (s.freeRx).resetting = s.resetting ∧
    (s.freeRx).freeCount = s.freeCount ∧ (s.freeRx).pending = s.pending := by
  unfold State.freeRx
  simp

@[simp] theorem State.withdrawFrame_frame (kind : FrameKind) (s : State) :
    (s.withdrawFrame kind).timer = s.timer ∧ (s.withdrawFrame kind).member = s.member ∧
    (s.withdrawFrame kind).sync = s.sync ∧ (s.withdrawFrame kind).cues = s.cues ∧
    (s.withdrawFrame kind).firing = s.firing ∧ (s.withdrawFrame kind).power = s.power ∧
    (s.withdrawFrame kind).port = s.port ∧ (s.withdrawFrame kind).resetting = s.resetting ∧
    (s.withdrawFrame kind).freeCount = s.freeCount ∧ (s.withdrawFrame kind).pending = s.pending := by
  unfold State.withdrawFrame
  (repeat' split) <;> simp

@[simp] theorem State.handReception_frame (r : Reception) (condition : Condition) (s : State) :
    (s.handReception r condition).timer = s.timer ∧ (s.handReception r condition).line = s.line ∧
    (s.handReception r condition).member = s.member ∧ (s.handReception r condition).sync = s.sync ∧
    (s.handReception r condition).cues = s.cues ∧ (s.handReception r condition).firing = s.firing ∧
    (s.handReception r condition).power = s.power ∧ (s.handReception r condition).port = s.port ∧
    (s.handReception r condition).resetting = s.resetting ∧
    (s.handReception r condition).freeCount = s.freeCount ∧
    (s.handReception r condition).pending = s.pending := by
  unfold State.handReception
  simp

@[simp] theorem State.handFrame_frame (frame : OutFrame) (handed : Handed) (s : State) :
    (s.handFrame frame handed).timer = s.timer ∧ (s.handFrame frame handed).member = s.member ∧
    (s.handFrame frame handed).sync = s.sync ∧ (s.handFrame frame handed).cues = s.cues ∧
    (s.handFrame frame handed).firing = s.firing ∧ (s.handFrame frame handed).power = s.power ∧
    (s.handFrame frame handed).port = s.port ∧ (s.handFrame frame handed).resetting = s.resetting ∧
    (s.handFrame frame handed).freeCount = s.freeCount ∧ (s.handFrame frame handed).pending = s.pending := by
  unfold State.handFrame
  (repeat' split) <;> simp

@[simp] theorem State.enterBackoff_frame (n : Nat) (s : State) :
    (s.enterBackoff n).timer = s.timer ∧ (s.enterBackoff n).frame = s.frame ∧
    (s.enterBackoff n).sync = s.sync ∧ (s.enterBackoff n).cues = s.cues ∧
    (s.enterBackoff n).firing = s.firing ∧ (s.enterBackoff n).power = s.power ∧
    (s.enterBackoff n).port = s.port ∧ (s.enterBackoff n).resetting = s.resetting ∧
    (s.enterBackoff n).freeCount = s.freeCount ∧ (s.enterBackoff n).pending = s.pending := by
  unfold State.enterBackoff
  simp

@[simp] theorem State.drawBackoff_frame (s : State) :
    (s.drawBackoff).timer = s.timer ∧ (s.drawBackoff).frame = s.frame ∧ (s.drawBackoff).sync = s.sync ∧
    (s.drawBackoff).cues = s.cues ∧ (s.drawBackoff).firing = s.firing ∧ (s.drawBackoff).power = s.power ∧
    (s.drawBackoff).port = s.port ∧ (s.drawBackoff).resetting = s.resetting ∧
    (s.drawBackoff).freeCount = s.freeCount ∧ (s.drawBackoff).pending = s.pending := by
  unfold State.drawBackoff
  simp

@[simp] theorem State.drawTarget_frame (s : State) :
    (s.drawTarget).timer = s.timer ∧ (s.drawTarget).frame = s.frame ∧ (s.drawTarget).sync = s.sync ∧
    (s.drawTarget).cues = s.cues ∧ (s.drawTarget).firing = s.firing ∧ (s.drawTarget).power = s.power ∧
    (s.drawTarget).port.config = s.port.config ∧ (s.drawTarget).port.locked = s.port.locked ∧
    (s.drawTarget).port.taken = s.port.taken ∧ (s.drawTarget).port.response = s.port.response ∧
    (s.drawTarget).port.lost = s.port.lost ∧ (s.drawTarget).port.selected = s.port.selected ∧
    (s.drawTarget).port.fetching = s.port.fetching ∧ (s.drawTarget).port.sdo = s.port.sdo ∧
    (s.drawTarget).resetting = s.resetting ∧ (s.drawTarget).freeCount = s.freeCount ∧
    (s.drawTarget).pending = s.pending := by
  unfold State.drawTarget
  (repeat' split) <;> simp

@[simp] theorem State.enterClaiming_frame (s : State) :
    (s.enterClaiming).timer = s.timer ∧ (s.enterClaiming).frame = s.frame ∧
    (s.enterClaiming).sync = s.sync ∧ (s.enterClaiming).cues = s.cues ∧
    (s.enterClaiming).firing = s.firing ∧ (s.enterClaiming).power = s.power ∧
    (s.enterClaiming).port.config = s.port.config ∧ (s.enterClaiming).port.locked = s.port.locked ∧
    (s.enterClaiming).port.taken = s.port.taken ∧ (s.enterClaiming).port.response = s.port.response ∧
    (s.enterClaiming).port.lost = s.port.lost ∧ (s.enterClaiming).port.selected = s.port.selected ∧
    (s.enterClaiming).port.fetching = s.port.fetching ∧ (s.enterClaiming).port.sdo = s.port.sdo ∧
    (s.enterClaiming).resetting = s.resetting ∧ (s.enterClaiming).freeCount = s.freeCount ∧
    (s.enterClaiming).pending = s.pending := by
  unfold State.enterClaiming
  simp

@[simp] theorem State.drawPosition_frame (s : State) :
    (s.drawPosition).timer = s.timer ∧ (s.drawPosition).line = s.line ∧ (s.drawPosition).frame = s.frame ∧
    (s.drawPosition).sync = s.sync ∧ (s.drawPosition).cues = s.cues ∧ (s.drawPosition).firing = s.firing ∧
    (s.drawPosition).power = s.power ∧ (s.drawPosition).port = s.port ∧
    (s.drawPosition).resetting = s.resetting ∧ (s.drawPosition).freeCount = s.freeCount ∧
    (s.drawPosition).pending = s.pending := by
  unfold State.drawPosition
  (repeat' split) <;> simp

@[simp] theorem State.redrawTarget_frame (s : State) :
    (s.redrawTarget).timer = s.timer ∧ (s.redrawTarget).sync = s.sync ∧ (s.redrawTarget).cues = s.cues ∧
    (s.redrawTarget).firing = s.firing ∧ (s.redrawTarget).power = s.power ∧
    (s.redrawTarget).port.config = s.port.config ∧ (s.redrawTarget).port.locked = s.port.locked ∧
    (s.redrawTarget).port.taken = s.port.taken ∧ (s.redrawTarget).port.response = s.port.response ∧
    (s.redrawTarget).port.lost = s.port.lost ∧ (s.redrawTarget).port.selected = s.port.selected ∧
    (s.redrawTarget).port.fetching = s.port.fetching ∧ (s.redrawTarget).port.sdo = s.port.sdo ∧
    (s.redrawTarget).resetting = s.resetting ∧ (s.redrawTarget).freeCount = s.freeCount ∧
    (s.redrawTarget).pending = s.pending := by
  unfold State.redrawTarget
  simp

@[simp] theorem State.yieldSlot_frame (s : State) :
    (s.yieldSlot).timer = s.timer ∧ (s.yieldSlot).sync = s.sync ∧ (s.yieldSlot).cues = s.cues ∧
    (s.yieldSlot).firing = s.firing ∧ (s.yieldSlot).power = s.power ∧
    (s.yieldSlot).port.config = s.port.config ∧ (s.yieldSlot).port.locked = s.port.locked ∧
    (s.yieldSlot).port.taken = s.port.taken ∧ (s.yieldSlot).port.response = s.port.response ∧
    (s.yieldSlot).port.lost = s.port.lost ∧ (s.yieldSlot).port.selected = s.port.selected ∧
    (s.yieldSlot).port.fetching = s.port.fetching ∧ (s.yieldSlot).port.sdo = s.port.sdo ∧
    (s.yieldSlot).resetting = s.resetting ∧ (s.yieldSlot).freeCount = s.freeCount ∧
    (s.yieldSlot).pending = s.pending := by
  unfold State.yieldSlot
  (repeat' split) <;> simp

@[simp] theorem State.resetTables_frame (s : State) :
    (s.resetTables).timer = s.timer ∧ (s.resetTables).line = s.line ∧ (s.resetTables).frame = s.frame ∧
    (s.resetTables).sync = s.sync ∧ (s.resetTables).cues = s.cues ∧ (s.resetTables).firing = s.firing ∧
    (s.resetTables).power = s.power ∧ (s.resetTables).port = s.port ∧
    (s.resetTables).resetting = s.resetting ∧ (s.resetTables).freeCount = s.freeCount ∧
    (s.resetTables).pending = s.pending := by
  unfold State.resetTables
  simp

@[simp] theorem State.takeStrike_frame (round : Round) (reporter : Option Byte) (s : State) :
    (s.takeStrike round reporter).timer = s.timer ∧ (s.takeStrike round reporter).sync = s.sync ∧
    (s.takeStrike round reporter).cues = s.cues ∧ (s.takeStrike round reporter).firing = s.firing ∧
    (s.takeStrike round reporter).power = s.power ∧
    (s.takeStrike round reporter).port.config = s.port.config ∧
    (s.takeStrike round reporter).port.locked = s.port.locked ∧
    (s.takeStrike round reporter).port.taken = s.port.taken ∧
    (s.takeStrike round reporter).port.response = s.port.response ∧
    (s.takeStrike round reporter).port.lost = s.port.lost ∧
    (s.takeStrike round reporter).port.selected = s.port.selected ∧
    (s.takeStrike round reporter).port.fetching = s.port.fetching ∧
    (s.takeStrike round reporter).port.sdo = s.port.sdo ∧
    (s.takeStrike round reporter).resetting = s.resetting ∧
    (s.takeStrike round reporter).freeCount = s.freeCount ∧
    (s.takeStrike round reporter).pending = s.pending := by
  unfold State.takeStrike
  dsimp only
  (repeat' split) <;> simp

@[simp] theorem State.recordReport_frame (s : State) :
    (s.recordReport).timer = s.timer ∧ (s.recordReport).line = s.line ∧ (s.recordReport).frame = s.frame ∧
    (s.recordReport).member = s.member ∧ (s.recordReport).sync = s.sync ∧
    (s.recordReport).power = s.power ∧ (s.recordReport).port.config = s.port.config ∧
    (s.recordReport).port.locked = s.port.locked ∧ (s.recordReport).port.taken = s.port.taken ∧
    (s.recordReport).port.response = s.port.response ∧ (s.recordReport).port.lost = s.port.lost ∧
    (s.recordReport).port.selected = s.port.selected ∧ (s.recordReport).port.fetching = s.port.fetching ∧
    (s.recordReport).port.sdo = s.port.sdo ∧ (s.recordReport).resetting = s.resetting ∧
    (s.recordReport).freeCount = s.freeCount ∧ (s.recordReport).pending = s.pending := by
  unfold State.recordReport
  (repeat' split) <;> simp

@[simp] theorem State.recordReports_frame (s : State) :
    (s.recordReports).timer = s.timer ∧ (s.recordReports).line = s.line ∧
    (s.recordReports).frame = s.frame ∧ (s.recordReports).member = s.member ∧
    (s.recordReports).sync = s.sync ∧ (s.recordReports).power = s.power ∧
    (s.recordReports).port.config = s.port.config ∧ (s.recordReports).port.locked = s.port.locked ∧
    (s.recordReports).port.taken = s.port.taken ∧ (s.recordReports).port.response = s.port.response ∧
    (s.recordReports).port.lost = s.port.lost ∧ (s.recordReports).port.selected = s.port.selected ∧
    (s.recordReports).port.fetching = s.port.fetching ∧ (s.recordReports).port.sdo = s.port.sdo ∧
    (s.recordReports).resetting = s.resetting ∧ (s.recordReports).freeCount = s.freeCount ∧
    (s.recordReports).pending = s.pending := by
  unfold State.recordReports
  simp [iterate_field (fun s : State => s.timer), iterate_field (fun s : State => s.line), iterate_field (fun s : State => s.frame), iterate_field (fun s : State => s.member), iterate_field (fun s : State => s.sync), iterate_field (fun s : State => s.power), iterate_field (fun s : State => s.port.config), iterate_field (fun s : State => s.port.locked), iterate_field (fun s : State => s.port.taken), iterate_field (fun s : State => s.port.response), iterate_field (fun s : State => s.port.lost), iterate_field (fun s : State => s.port.selected), iterate_field (fun s : State => s.port.fetching), iterate_field (fun s : State => s.port.sdo), iterate_field (fun s : State => s.resetting), iterate_field (fun s : State => s.freeCount), iterate_field (fun s : State => s.pending)]

@[simp] theorem State.endPulses_frame (s : State) :
    (s.endPulses).timer = s.timer ∧ (s.endPulses).line = s.line ∧ (s.endPulses).frame = s.frame ∧
    (s.endPulses).member = s.member ∧ (s.endPulses).sync = s.sync ∧ (s.endPulses).cues = s.cues ∧
    (s.endPulses).power = s.power ∧ (s.endPulses).port = s.port ∧ (s.endPulses).resetting = s.resetting ∧
    (s.endPulses).freeCount = s.freeCount ∧ (s.endPulses).pending = s.pending := by
  unfold State.endPulses
  simp

@[simp] theorem State.wakeFor_frame (cause : WakeCause) (s : State) :
    (s.wakeFor cause).timer = s.timer ∧ (s.wakeFor cause).line = s.line ∧
    (s.wakeFor cause).frame = s.frame ∧ (s.wakeFor cause).member = s.member ∧
    (s.wakeFor cause).sync = s.sync ∧ (s.wakeFor cause).cues = s.cues ∧
    (s.wakeFor cause).firing = s.firing ∧ (s.wakeFor cause).port = s.port ∧
    (s.wakeFor cause).resetting = s.resetting ∧ (s.wakeFor cause).freeCount = s.freeCount ∧
    (s.wakeFor cause).pending = s.pending := by
  unfold State.wakeFor
  (repeat' split) <;> simp

@[simp] theorem State.dealWith_frame (e : CueEntry) (lateness : Nat) (s : State) :
    (s.dealWith e lateness).timer = s.timer ∧ (s.dealWith e lateness).line = s.line ∧
    (s.dealWith e lateness).frame = s.frame ∧ (s.dealWith e lateness).member = s.member ∧
    (s.dealWith e lateness).sync = s.sync ∧ (s.dealWith e lateness).cues = s.cues ∧
    (s.dealWith e lateness).port = s.port ∧ (s.dealWith e lateness).resetting = s.resetting ∧
    (s.dealWith e lateness).freeCount = s.freeCount ∧ (s.dealWith e lateness).pending = s.pending := by
  unfold State.dealWith
  (repeat' split) <;> simp

@[simp] theorem State.fallDue_frame (s : State) :
    (s.fallDue).timer = s.timer ∧ (s.fallDue).line = s.line ∧ (s.fallDue).frame = s.frame ∧
    (s.fallDue).member = s.member ∧ (s.fallDue).sync = s.sync ∧ (s.fallDue).cues = s.cues ∧
    (s.fallDue).port = s.port ∧ (s.fallDue).resetting = s.resetting ∧ (s.fallDue).freeCount = s.freeCount ∧
    (s.fallDue).pending = s.pending := by
  unfold State.fallDue
  (repeat' split) <;> simp [foldl_field (fun s : State => s.timer), foldl_field (fun s : State => s.line), foldl_field (fun s : State => s.frame), foldl_field (fun s : State => s.member), foldl_field (fun s : State => s.sync), foldl_field (fun s : State => s.cues), foldl_field (fun s : State => s.port), foldl_field (fun s : State => s.resetting), foldl_field (fun s : State => s.freeCount), foldl_field (fun s : State => s.pending)]

@[simp] theorem State.fireSkipped_frame (before after : Instant) (s : State) :
    (s.fireSkipped before after).timer = s.timer ∧ (s.fireSkipped before after).line = s.line ∧
    (s.fireSkipped before after).frame = s.frame ∧ (s.fireSkipped before after).member = s.member ∧
    (s.fireSkipped before after).sync = s.sync ∧ (s.fireSkipped before after).cues = s.cues ∧
    (s.fireSkipped before after).port = s.port ∧ (s.fireSkipped before after).resetting = s.resetting ∧
    (s.fireSkipped before after).freeCount = s.freeCount ∧ (s.fireSkipped before after).pending = s.pending := by
  unfold State.fireSkipped
  simp [foldl_field (fun s : State => s.timer), foldl_field (fun s : State => s.line), foldl_field (fun s : State => s.frame), foldl_field (fun s : State => s.member), foldl_field (fun s : State => s.sync), foldl_field (fun s : State => s.cues), foldl_field (fun s : State => s.port), foldl_field (fun s : State => s.resetting), foldl_field (fun s : State => s.freeCount), foldl_field (fun s : State => s.pending)]

@[simp] theorem State.settleCues_frame (s : State) :
    (s.settleCues).timer = s.timer ∧ (s.settleCues).line = s.line ∧ (s.settleCues).frame = s.frame ∧
    (s.settleCues).member = s.member ∧ (s.settleCues).sync = s.sync ∧
    (s.settleCues).port.config = s.port.config ∧ (s.settleCues).port.locked = s.port.locked ∧
    (s.settleCues).port.taken = s.port.taken ∧ (s.settleCues).port.response = s.port.response ∧
    (s.settleCues).port.lost = s.port.lost ∧ (s.settleCues).port.selected = s.port.selected ∧
    (s.settleCues).port.fetching = s.port.fetching ∧ (s.settleCues).port.sdo = s.port.sdo ∧
    (s.settleCues).resetting = s.resetting ∧ (s.settleCues).freeCount = s.freeCount ∧
    (s.settleCues).pending = s.pending := by
  unfold State.settleCues
  simp

@[simp] theorem State.enterReady_frame (s : State) :
    (s.enterReady).timer = s.timer ∧ (s.enterReady).port.config = s.port.config ∧
    (s.enterReady).port.locked = s.port.locked ∧ (s.enterReady).port.taken = s.port.taken ∧
    (s.enterReady).port.response = s.port.response ∧ (s.enterReady).port.lost = s.port.lost ∧
    (s.enterReady).port.selected = s.port.selected ∧ (s.enterReady).port.fetching = s.port.fetching ∧
    (s.enterReady).port.sdo = s.port.sdo ∧ (s.enterReady).resetting = s.resetting ∧
    (s.enterReady).freeCount = s.freeCount ∧ (s.enterReady).pending = s.pending := by
  unfold State.enterReady
  simp

@[simp] theorem State.completeLeave_frame (s : State) :
    (s.completeLeave).timer = s.timer ∧ (s.completeLeave).port.config = s.port.config ∧
    (s.completeLeave).port.locked = s.port.locked ∧ (s.completeLeave).port.taken = s.port.taken ∧
    (s.completeLeave).port.response = s.port.response ∧ (s.completeLeave).port.lost = s.port.lost ∧
    (s.completeLeave).port.selected = s.port.selected ∧ (s.completeLeave).port.fetching = s.port.fetching ∧
    (s.completeLeave).port.sdo = s.port.sdo ∧ (s.completeLeave).resetting = s.resetting ∧
    (s.completeLeave).freeCount = s.freeCount ∧ (s.completeLeave).pending = s.pending := by
  unfold State.completeLeave
  simp

@[simp] theorem State.moveArrival_frame (n : Int) (s : State) :
    (s.moveArrival n).timer = s.timer ∧ (s.moveArrival n).frame = s.frame ∧
    (s.moveArrival n).member = s.member ∧ (s.moveArrival n).sync = s.sync ∧
    (s.moveArrival n).cues = s.cues ∧ (s.moveArrival n).firing = s.firing ∧
    (s.moveArrival n).power = s.power ∧ (s.moveArrival n).port = s.port ∧
    (s.moveArrival n).resetting = s.resetting ∧ (s.moveArrival n).freeCount = s.freeCount ∧
    (s.moveArrival n).pending = s.pending := by
  unfold State.moveArrival
  (repeat' split) <;> simp

@[simp] theorem State.correct_frame (c : Int) (s : State) :
    (s.correct c).timer.lengthCode = s.timer.lengthCode ∧ (s.correct c).frame = s.frame ∧
    (s.correct c).member = s.member ∧ (s.correct c).sync = s.sync ∧ (s.correct c).cues = s.cues ∧
    (s.correct c).port = s.port ∧ (s.correct c).resetting = s.resetting ∧
    (s.correct c).freeCount = s.freeCount ∧ (s.correct c).pending = s.pending := by
  unfold State.correct
  (repeat' split) <;> simp

@[simp] theorem State.syncSeam_frame (s : State) :
    (s.syncSeam).timer.lengthCode = s.timer.lengthCode ∧ (s.syncSeam).frame = s.frame ∧
    (s.syncSeam).member = s.member ∧ (s.syncSeam).cues = s.cues ∧ (s.syncSeam).port = s.port ∧
    (s.syncSeam).resetting = s.resetting ∧ (s.syncSeam).freeCount = s.freeCount ∧
    (s.syncSeam).pending = s.pending := by
  unfold State.syncSeam
  (repeat' split) <;> simp

@[simp] theorem State.moveToSurvey_frame (c : Candidate) (s : State) :
    (s.moveToSurvey c).timer = s.timer ∧ (s.moveToSurvey c).frame = s.frame ∧
    (s.moveToSurvey c).cues = s.cues ∧ (s.moveToSurvey c).firing = s.firing ∧
    (s.moveToSurvey c).port.config = s.port.config ∧ (s.moveToSurvey c).port.locked = s.port.locked ∧
    (s.moveToSurvey c).port.taken = s.port.taken ∧ (s.moveToSurvey c).port.response = s.port.response ∧
    (s.moveToSurvey c).port.lost = s.port.lost ∧ (s.moveToSurvey c).port.selected = s.port.selected ∧
    (s.moveToSurvey c).port.fetching = s.port.fetching ∧ (s.moveToSurvey c).port.sdo = s.port.sdo ∧
    (s.moveToSurvey c).resetting = s.resetting ∧ (s.moveToSurvey c).freeCount = s.freeCount ∧
    (s.moveToSurvey c).pending = s.pending := by
  unfold State.moveToSurvey
  simp

@[simp] theorem State.holdTests_frame (s : State) :
    (s.holdTests).timer = s.timer ∧ (s.holdTests).sync = s.sync ∧ (s.holdTests).cues = s.cues ∧
    (s.holdTests).firing = s.firing ∧ (s.holdTests).power = s.power ∧
    (s.holdTests).port.config = s.port.config ∧ (s.holdTests).port.locked = s.port.locked ∧
    (s.holdTests).port.taken = s.port.taken ∧ (s.holdTests).port.response = s.port.response ∧
    (s.holdTests).port.lost = s.port.lost ∧ (s.holdTests).port.selected = s.port.selected ∧
    (s.holdTests).port.fetching = s.port.fetching ∧ (s.holdTests).port.sdo = s.port.sdo ∧
    (s.holdTests).resetting = s.resetting ∧ (s.holdTests).freeCount = s.freeCount ∧
    (s.holdTests).pending = s.pending := by
  unfold State.holdTests
  (repeat' split) <;> simp

@[simp] theorem State.memberSeam_frame (s : State) :
    (s.memberSeam).timer = s.timer ∧ (s.memberSeam).port.config = s.port.config ∧
    (s.memberSeam).port.locked = s.port.locked ∧ (s.memberSeam).port.taken = s.port.taken ∧
    (s.memberSeam).port.response = s.port.response ∧ (s.memberSeam).port.lost = s.port.lost ∧
    (s.memberSeam).port.selected = s.port.selected ∧ (s.memberSeam).port.fetching = s.port.fetching ∧
    (s.memberSeam).port.sdo = s.port.sdo ∧ (s.memberSeam).resetting = s.resetting ∧
    (s.memberSeam).freeCount = s.freeCount ∧ (s.memberSeam).pending = s.pending := by
  unfold State.memberSeam
  (repeat' split) <;> simp

@[simp] theorem State.openWindow_frame (k : Slot) (s : State) :
    (s.openWindow k).timer = s.timer ∧ (s.openWindow k).frame = s.frame ∧
    (s.openWindow k).member = s.member ∧ (s.openWindow k).sync = s.sync ∧ (s.openWindow k).cues = s.cues ∧
    (s.openWindow k).firing = s.firing ∧ (s.openWindow k).power = s.power ∧
    (s.openWindow k).port = s.port ∧ (s.openWindow k).resetting = s.resetting ∧
    (s.openWindow k).freeCount = s.freeCount ∧ (s.openWindow k).pending = s.pending := by
  unfold State.openWindow
  simp

@[simp] theorem State.openDueWindow_frame (s : State) :
    (s.openDueWindow).timer = s.timer ∧ (s.openDueWindow).frame = s.frame ∧
    (s.openDueWindow).member = s.member ∧ (s.openDueWindow).sync = s.sync ∧
    (s.openDueWindow).cues = s.cues ∧ (s.openDueWindow).firing = s.firing ∧
    (s.openDueWindow).power = s.power ∧ (s.openDueWindow).port = s.port ∧
    (s.openDueWindow).resetting = s.resetting ∧ (s.openDueWindow).freeCount = s.freeCount ∧
    (s.openDueWindow).pending = s.pending := by
  unfold State.openDueWindow
  (repeat' split) <;> simp

@[simp] theorem State.reportSilent_frame (k : Slot) (round : Round) (s : State) :
    (s.reportSilent k round).timer = s.timer ∧ (s.reportSilent k round).line = s.line ∧
    (s.reportSilent k round).frame = s.frame ∧ (s.reportSilent k round).sync = s.sync ∧
    (s.reportSilent k round).cues = s.cues ∧ (s.reportSilent k round).firing = s.firing ∧
    (s.reportSilent k round).power = s.power ∧ (s.reportSilent k round).port.config = s.port.config ∧
    (s.reportSilent k round).port.locked = s.port.locked ∧
    (s.reportSilent k round).port.taken = s.port.taken ∧
    (s.reportSilent k round).port.response = s.port.response ∧
    (s.reportSilent k round).port.lost = s.port.lost ∧
    (s.reportSilent k round).port.selected = s.port.selected ∧
    (s.reportSilent k round).port.fetching = s.port.fetching ∧
    (s.reportSilent k round).port.sdo = s.port.sdo ∧ (s.reportSilent k round).resetting = s.resetting ∧
    (s.reportSilent k round).freeCount = s.freeCount ∧ (s.reportSilent k round).pending = s.pending := by
  unfold State.reportSilent
  simp [foldl_field (fun s : State => s.timer), foldl_field (fun s : State => s.line), foldl_field (fun s : State => s.frame), foldl_field (fun s : State => s.sync), foldl_field (fun s : State => s.cues), foldl_field (fun s : State => s.firing), foldl_field (fun s : State => s.power), foldl_field (fun s : State => s.port.config), foldl_field (fun s : State => s.port.locked), foldl_field (fun s : State => s.port.taken), foldl_field (fun s : State => s.port.response), foldl_field (fun s : State => s.port.lost), foldl_field (fun s : State => s.port.selected), foldl_field (fun s : State => s.port.fetching), foldl_field (fun s : State => s.port.sdo), foldl_field (fun s : State => s.resetting), foldl_field (fun s : State => s.freeCount), foldl_field (fun s : State => s.pending)]

@[simp] theorem State.closeWindow_frame (s : State) :
    (s.closeWindow).timer = s.timer ∧ (s.closeWindow).frame = s.frame ∧ (s.closeWindow).sync = s.sync ∧
    (s.closeWindow).cues = s.cues ∧ (s.closeWindow).firing = s.firing ∧ (s.closeWindow).power = s.power ∧
    (s.closeWindow).port.config = s.port.config ∧ (s.closeWindow).port.locked = s.port.locked ∧
    (s.closeWindow).port.taken = s.port.taken ∧ (s.closeWindow).port.response = s.port.response ∧
    (s.closeWindow).port.lost = s.port.lost ∧ (s.closeWindow).port.selected = s.port.selected ∧
    (s.closeWindow).port.fetching = s.port.fetching ∧ (s.closeWindow).port.sdo = s.port.sdo ∧
    (s.closeWindow).resetting = s.resetting ∧ (s.closeWindow).freeCount = s.freeCount ∧
    (s.closeWindow).pending = s.pending := by
  unfold State.closeWindow
  (repeat' split) <;> simp

@[simp] theorem State.recognise_frame (s : State) :
    (s.recognise).timer = s.timer ∧ (s.recognise).frame = s.frame ∧ (s.recognise).member = s.member ∧
    (s.recognise).sync = s.sync ∧ (s.recognise).cues = s.cues ∧ (s.recognise).firing = s.firing ∧
    (s.recognise).power = s.power ∧ (s.recognise).port = s.port ∧ (s.recognise).resetting = s.resetting ∧
    (s.recognise).freeCount = s.freeCount ∧ (s.recognise).pending = s.pending := by
  unfold State.recognise
  (repeat' split) <;> simp

@[simp] theorem State.endReception_frame (s : State) :
    (s.endReception).timer = s.timer ∧ (s.endReception).member = s.member ∧
    (s.endReception).sync = s.sync ∧ (s.endReception).cues = s.cues ∧ (s.endReception).firing = s.firing ∧
    (s.endReception).power = s.power ∧ (s.endReception).port = s.port ∧
    (s.endReception).resetting = s.resetting ∧ (s.endReception).freeCount = s.freeCount ∧
    (s.endReception).pending = s.pending := by
  unfold State.endReception
  (repeat' split) <;> simp

@[simp] theorem State.clearHanded_frame (s : State) :
    (s.clearHanded).timer = s.timer ∧ (s.clearHanded).line = s.line ∧ (s.clearHanded).member = s.member ∧
    (s.clearHanded).sync = s.sync ∧ (s.clearHanded).cues = s.cues ∧ (s.clearHanded).firing = s.firing ∧
    (s.clearHanded).power = s.power ∧ (s.clearHanded).port = s.port ∧
    (s.clearHanded).resetting = s.resetting ∧ (s.clearHanded).freeCount = s.freeCount ∧
    (s.clearHanded).pending = s.pending := by
  unfold State.clearHanded
  simp

@[simp] theorem State.beginSending_frame (f : OutFrame) (s : State) :
    (s.beginSending f).timer = s.timer ∧ (s.beginSending f).frame = s.frame ∧
    (s.beginSending f).member = s.member ∧ (s.beginSending f).sync = s.sync ∧
    (s.beginSending f).cues = s.cues ∧ (s.beginSending f).firing = s.firing ∧
    (s.beginSending f).power = s.power ∧ (s.beginSending f).port = s.port ∧
    (s.beginSending f).resetting = s.resetting ∧ (s.beginSending f).freeCount = s.freeCount ∧
    (s.beginSending f).pending = s.pending := by
  unfold State.beginSending
  simp

@[simp] theorem State.deferClaim_frame (s : State) :
    (s.deferClaim).timer = s.timer ∧ (s.deferClaim).sync = s.sync ∧ (s.deferClaim).cues = s.cues ∧
    (s.deferClaim).firing = s.firing ∧ (s.deferClaim).power = s.power ∧ (s.deferClaim).port = s.port ∧
    (s.deferClaim).resetting = s.resetting ∧ (s.deferClaim).freeCount = s.freeCount ∧
    (s.deferClaim).pending = s.pending := by
  unfold State.deferClaim
  simp

@[simp] theorem State.abandon_frame (s : State) :
    (s.abandon).timer = s.timer ∧ (s.abandon).line = s.line ∧ (s.abandon).member = s.member ∧
    (s.abandon).sync = s.sync ∧ (s.abandon).cues = s.cues ∧ (s.abandon).firing = s.firing ∧
    (s.abandon).power = s.power ∧ (s.abandon).port = s.port ∧ (s.abandon).resetting = s.resetting ∧
    (s.abandon).freeCount = s.freeCount ∧ (s.abandon).pending = s.pending := by
  unfold State.abandon
  (repeat' split) <;> simp

@[simp] theorem State.startTransmission_frame (s : State) :
    (s.startTransmission).timer = s.timer ∧ (s.startTransmission).sync = s.sync ∧
    (s.startTransmission).cues = s.cues ∧ (s.startTransmission).firing = s.firing ∧
    (s.startTransmission).power = s.power ∧ (s.startTransmission).port = s.port ∧
    (s.startTransmission).resetting = s.resetting ∧ (s.startTransmission).freeCount = s.freeCount ∧
    (s.startTransmission).pending = s.pending := by
  unfold State.startTransmission
  (repeat' split) <;> simp

@[simp] theorem State.countLeaving_frame (s : State) :
    (s.countLeaving).timer = s.timer ∧ (s.countLeaving).port.config = s.port.config ∧
    (s.countLeaving).port.locked = s.port.locked ∧ (s.countLeaving).port.taken = s.port.taken ∧
    (s.countLeaving).port.response = s.port.response ∧ (s.countLeaving).port.lost = s.port.lost ∧
    (s.countLeaving).port.selected = s.port.selected ∧ (s.countLeaving).port.fetching = s.port.fetching ∧
    (s.countLeaving).port.sdo = s.port.sdo ∧ (s.countLeaving).resetting = s.resetting ∧
    (s.countLeaving).freeCount = s.freeCount ∧ (s.countLeaving).pending = s.pending := by
  unfold State.countLeaving
  (repeat' split) <;> simp

@[simp] theorem State.takeOwnSlot_frame (k : Slot) (round : Round) (s : State) :
    (s.takeOwnSlot k round).timer = s.timer ∧ (s.takeOwnSlot k round).line = s.line ∧
    (s.takeOwnSlot k round).frame = s.frame ∧ (s.takeOwnSlot k round).sync = s.sync ∧
    (s.takeOwnSlot k round).cues = s.cues ∧ (s.takeOwnSlot k round).firing = s.firing ∧
    (s.takeOwnSlot k round).power = s.power ∧ (s.takeOwnSlot k round).port = s.port ∧
    (s.takeOwnSlot k round).resetting = s.resetting ∧ (s.takeOwnSlot k round).freeCount = s.freeCount ∧
    (s.takeOwnSlot k round).pending = s.pending := by
  unfold State.takeOwnSlot
  simp

@[simp] theorem State.claimSent_frame (f : OutFrame) (s : State) :
    (s.claimSent f).timer = s.timer ∧ (s.claimSent f).sync = s.sync ∧ (s.claimSent f).cues = s.cues ∧
    (s.claimSent f).firing = s.firing ∧ (s.claimSent f).power = s.power ∧
    (s.claimSent f).port.config = s.port.config ∧ (s.claimSent f).port.locked = s.port.locked ∧
    (s.claimSent f).port.taken = s.port.taken ∧ (s.claimSent f).port.response = s.port.response ∧
    (s.claimSent f).port.lost = s.port.lost ∧ (s.claimSent f).port.selected = s.port.selected ∧
    (s.claimSent f).port.fetching = s.port.fetching ∧ (s.claimSent f).port.sdo = s.port.sdo ∧
    (s.claimSent f).resetting = s.resetting ∧ (s.claimSent f).freeCount = s.freeCount ∧
    (s.claimSent f).pending = s.pending := by
  unfold State.claimSent
  dsimp only
  (repeat' split) <;> simp

@[simp] theorem State.claimCollided_frame (s : State) :
    (s.claimCollided).timer = s.timer ∧ (s.claimCollided).sync = s.sync ∧ (s.claimCollided).cues = s.cues ∧
    (s.claimCollided).firing = s.firing ∧ (s.claimCollided).power = s.power ∧
    (s.claimCollided).port.config = s.port.config ∧ (s.claimCollided).port.locked = s.port.locked ∧
    (s.claimCollided).port.taken = s.port.taken ∧ (s.claimCollided).port.response = s.port.response ∧
    (s.claimCollided).port.lost = s.port.lost ∧ (s.claimCollided).port.selected = s.port.selected ∧
    (s.claimCollided).port.fetching = s.port.fetching ∧ (s.claimCollided).port.sdo = s.port.sdo ∧
    (s.claimCollided).resetting = s.resetting ∧ (s.claimCollided).freeCount = s.freeCount ∧
    (s.claimCollided).pending = s.pending := by
  unfold State.claimCollided
  dsimp only
  (repeat' split) <;> simp

@[simp] theorem State.noteOwnOutcome_frame (k : Slot) (o : TxOutcome) (s : State) :
    (s.noteOwnOutcome k o).timer = s.timer ∧ (s.noteOwnOutcome k o).line = s.line ∧
    (s.noteOwnOutcome k o).frame = s.frame ∧ (s.noteOwnOutcome k o).sync = s.sync ∧
    (s.noteOwnOutcome k o).cues = s.cues ∧ (s.noteOwnOutcome k o).firing = s.firing ∧
    (s.noteOwnOutcome k o).power = s.power ∧ (s.noteOwnOutcome k o).port = s.port ∧
    (s.noteOwnOutcome k o).resetting = s.resetting ∧ (s.noteOwnOutcome k o).freeCount = s.freeCount ∧
    (s.noteOwnOutcome k o).pending = s.pending := by
  unfold State.noteOwnOutcome
  (repeat' split) <;> simp

@[simp] theorem State.beaconCollided_frame (f : OutFrame) (k : Slot) (flag : BeaconFlag) (s : State) :
    (s.beaconCollided f k flag).timer = s.timer ∧ (s.beaconCollided f k flag).port.config = s.port.config ∧
    (s.beaconCollided f k flag).port.locked = s.port.locked ∧
    (s.beaconCollided f k flag).port.taken = s.port.taken ∧
    (s.beaconCollided f k flag).port.response = s.port.response ∧
    (s.beaconCollided f k flag).port.lost = s.port.lost ∧
    (s.beaconCollided f k flag).port.selected = s.port.selected ∧
    (s.beaconCollided f k flag).port.fetching = s.port.fetching ∧
    (s.beaconCollided f k flag).port.sdo = s.port.sdo ∧
    (s.beaconCollided f k flag).resetting = s.resetting ∧
    (s.beaconCollided f k flag).freeCount = s.freeCount ∧ (s.beaconCollided f k flag).pending = s.pending := by
  unfold State.beaconCollided
  dsimp only
  (repeat' split) <;> simp

@[simp] theorem State.beaconSent_frame (f : OutFrame) (k : Slot) (flag : BeaconFlag) (s : State) :
    (s.beaconSent f k flag).timer = s.timer ∧ (s.beaconSent f k flag).port.config = s.port.config ∧
    (s.beaconSent f k flag).port.locked = s.port.locked ∧
    (s.beaconSent f k flag).port.taken = s.port.taken ∧
    (s.beaconSent f k flag).port.response = s.port.response ∧
    (s.beaconSent f k flag).port.lost = s.port.lost ∧
    (s.beaconSent f k flag).port.selected = s.port.selected ∧
    (s.beaconSent f k flag).port.fetching = s.port.fetching ∧
    (s.beaconSent f k flag).port.sdo = s.port.sdo ∧ (s.beaconSent f k flag).resetting = s.resetting ∧
    (s.beaconSent f k flag).freeCount = s.freeCount ∧ (s.beaconSent f k flag).pending = s.pending := by
  unfold State.beaconSent
  dsimp only
  (repeat' split) <;> simp

@[simp] theorem State.reportCollided_frame (s : State) :
    (s.reportCollided).timer = s.timer ∧ (s.reportCollided).port.config = s.port.config ∧
    (s.reportCollided).port.locked = s.port.locked ∧ (s.reportCollided).port.taken = s.port.taken ∧
    (s.reportCollided).port.response = s.port.response ∧ (s.reportCollided).port.lost = s.port.lost ∧
    (s.reportCollided).port.selected = s.port.selected ∧
    (s.reportCollided).port.fetching = s.port.fetching ∧ (s.reportCollided).port.sdo = s.port.sdo ∧
    (s.reportCollided).resetting = s.resetting ∧ (s.reportCollided).freeCount = s.freeCount ∧
    (s.reportCollided).pending = s.pending := by
  unfold State.reportCollided
  dsimp only
  (repeat' split) <;> simp

@[simp] theorem State.reportSent_frame (s : State) :
    (s.reportSent).timer = s.timer ∧ (s.reportSent).port.config = s.port.config ∧
    (s.reportSent).port.locked = s.port.locked ∧ (s.reportSent).port.taken = s.port.taken ∧
    (s.reportSent).port.response = s.port.response ∧ (s.reportSent).port.lost = s.port.lost ∧
    (s.reportSent).port.selected = s.port.selected ∧ (s.reportSent).port.fetching = s.port.fetching ∧
    (s.reportSent).port.sdo = s.port.sdo ∧ (s.reportSent).resetting = s.resetting ∧
    (s.reportSent).freeCount = s.freeCount ∧ (s.reportSent).pending = s.pending := by
  unfold State.reportSent
  dsimp only
  (repeat' split) <;> simp

@[simp] theorem State.takeLineEvent_frame (event : LineEvent) (s : State) :
    (s.takeLineEvent event).timer = s.timer ∧ (s.takeLineEvent event).port.config = s.port.config ∧
    (s.takeLineEvent event).port.locked = s.port.locked ∧
    (s.takeLineEvent event).port.taken = s.port.taken ∧
    (s.takeLineEvent event).port.response = s.port.response ∧
    (s.takeLineEvent event).port.lost = s.port.lost ∧
    (s.takeLineEvent event).port.selected = s.port.selected ∧
    (s.takeLineEvent event).port.fetching = s.port.fetching ∧
    (s.takeLineEvent event).port.sdo = s.port.sdo ∧ (s.takeLineEvent event).resetting = s.resetting ∧
    (s.takeLineEvent event).freeCount = s.freeCount ∧ (s.takeLineEvent event).pending = s.pending := by
  unfold State.takeLineEvent
  (repeat' split) <;> simp

@[simp] theorem State.takeNext_frame (event : LineEvent) (s : State) :
    (s.takeNext event).timer = s.timer ∧ (s.takeNext event).port.config = s.port.config ∧
    (s.takeNext event).port.locked = s.port.locked ∧ (s.takeNext event).port.taken = s.port.taken ∧
    (s.takeNext event).port.response = s.port.response ∧ (s.takeNext event).port.lost = s.port.lost ∧
    (s.takeNext event).port.selected = s.port.selected ∧
    (s.takeNext event).port.fetching = s.port.fetching ∧ (s.takeNext event).port.sdo = s.port.sdo ∧
    (s.takeNext event).resetting = s.resetting ∧ (s.takeNext event).freeCount = s.freeCount ∧
    (s.takeNext event).pending = s.pending := by
  unfold State.takeNext
  (repeat' split) <;> simp

@[simp] theorem State.sampleWave_frame (s : State) :
    (s.sampleWave).timer = s.timer ∧ (s.sampleWave).port.config = s.port.config ∧
    (s.sampleWave).port.locked = s.port.locked ∧ (s.sampleWave).port.taken = s.port.taken ∧
    (s.sampleWave).port.response = s.port.response ∧ (s.sampleWave).port.lost = s.port.lost ∧
    (s.sampleWave).port.selected = s.port.selected ∧ (s.sampleWave).port.fetching = s.port.fetching ∧
    (s.sampleWave).port.sdo = s.port.sdo ∧ (s.sampleWave).resetting = s.resetting ∧
    (s.sampleWave).freeCount = s.freeCount ∧ (s.sampleWave).pending = s.pending := by
  unfold State.sampleWave
  (repeat' split) <;> simp

@[simp] theorem State.runWave_frame (s : State) :
    (s.runWave).timer = s.timer ∧ (s.runWave).port.config = s.port.config ∧
    (s.runWave).port.locked = s.port.locked ∧ (s.runWave).port.taken = s.port.taken ∧
    (s.runWave).port.response = s.port.response ∧ (s.runWave).port.lost = s.port.lost ∧
    (s.runWave).port.selected = s.port.selected ∧ (s.runWave).port.fetching = s.port.fetching ∧
    (s.runWave).port.sdo = s.port.sdo ∧ (s.runWave).resetting = s.resetting ∧
    (s.runWave).freeCount = s.freeCount ∧ (s.runWave).pending = s.pending := by
  unfold State.runWave
  split <;> simp [iterate_field (fun s : State => s.timer), iterate_field (fun s : State => s.port.config), iterate_field (fun s : State => s.port.locked), iterate_field (fun s : State => s.port.taken), iterate_field (fun s : State => s.port.response), iterate_field (fun s : State => s.port.lost), iterate_field (fun s : State => s.port.selected), iterate_field (fun s : State => s.port.fetching), iterate_field (fun s : State => s.port.sdo), iterate_field (fun s : State => s.resetting), iterate_field (fun s : State => s.freeCount), iterate_field (fun s : State => s.pending)]

@[simp] theorem State.buildBeacon_frame (k : Slot) (s : State) :
    (s.buildBeacon k).timer = s.timer ∧ (s.buildBeacon k).member = s.member ∧
    (s.buildBeacon k).sync = s.sync ∧ (s.buildBeacon k).port.config = s.port.config ∧
    (s.buildBeacon k).port.locked = s.port.locked ∧ (s.buildBeacon k).port.taken = s.port.taken ∧
    (s.buildBeacon k).port.response = s.port.response ∧ (s.buildBeacon k).port.lost = s.port.lost ∧
    (s.buildBeacon k).port.selected = s.port.selected ∧ (s.buildBeacon k).port.fetching = s.port.fetching ∧
    (s.buildBeacon k).port.sdo = s.port.sdo ∧ (s.buildBeacon k).resetting = s.resetting ∧
    (s.buildBeacon k).freeCount = s.freeCount ∧ (s.buildBeacon k).pending = s.pending := by
  unfold State.buildBeacon
  (repeat' split) <;> simp

@[simp] theorem State.buildClaim_frame (k : Slot) (s : State) :
    (s.buildClaim k).timer = s.timer ∧ (s.buildClaim k).member = s.member ∧
    (s.buildClaim k).sync = s.sync ∧ (s.buildClaim k).cues = s.cues ∧ (s.buildClaim k).firing = s.firing ∧
    (s.buildClaim k).power = s.power ∧ (s.buildClaim k).port = s.port ∧
    (s.buildClaim k).resetting = s.resetting ∧ (s.buildClaim k).freeCount = s.freeCount ∧
    (s.buildClaim k).pending = s.pending := by
  unfold State.buildClaim
  (repeat' split) <;> simp

@[simp] theorem State.clearDue_frame (s : State) :
    (s.clearDue).timer.lengthCode = s.timer.lengthCode ∧ (s.clearDue).line = s.line ∧
    (s.clearDue).frame = s.frame ∧ (s.clearDue).member = s.member ∧ (s.clearDue).sync = s.sync ∧
    (s.clearDue).cues = s.cues ∧ (s.clearDue).firing = s.firing ∧ (s.clearDue).power = s.power ∧
    (s.clearDue).port = s.port ∧ (s.clearDue).resetting = s.resetting ∧
    (s.clearDue).freeCount = s.freeCount ∧ (s.clearDue).pending = s.pending := by
  unfold State.clearDue
  simp

@[simp] theorem State.announceSlot_frame (s : State) :
    (s.announceSlot).timer.lengthCode = s.timer.lengthCode ∧ (s.announceSlot).member = s.member ∧
    (s.announceSlot).sync = s.sync ∧ (s.announceSlot).port.config = s.port.config ∧
    (s.announceSlot).port.locked = s.port.locked ∧ (s.announceSlot).port.taken = s.port.taken ∧
    (s.announceSlot).port.response = s.port.response ∧ (s.announceSlot).port.lost = s.port.lost ∧
    (s.announceSlot).port.selected = s.port.selected ∧ (s.announceSlot).port.fetching = s.port.fetching ∧
    (s.announceSlot).port.sdo = s.port.sdo ∧ (s.announceSlot).resetting = s.resetting ∧
    (s.announceSlot).freeCount = s.freeCount ∧ (s.announceSlot).pending = s.pending := by
  unfold State.announceSlot
  dsimp only
  (repeat' split) <;> simp

@[simp] theorem State.countMissed_frame (ended : Round) (s : State) :
    (s.countMissed ended).timer = s.timer ∧ (s.countMissed ended).line = s.line ∧
    (s.countMissed ended).frame = s.frame ∧ (s.countMissed ended).sync = s.sync ∧
    (s.countMissed ended).cues = s.cues ∧ (s.countMissed ended).firing = s.firing ∧
    (s.countMissed ended).power = s.power ∧ (s.countMissed ended).port.config = s.port.config ∧
    (s.countMissed ended).port.locked = s.port.locked ∧ (s.countMissed ended).port.taken = s.port.taken ∧
    (s.countMissed ended).port.response = s.port.response ∧ (s.countMissed ended).port.lost = s.port.lost ∧
    (s.countMissed ended).port.selected = s.port.selected ∧
    (s.countMissed ended).port.fetching = s.port.fetching ∧ (s.countMissed ended).port.sdo = s.port.sdo ∧
    (s.countMissed ended).resetting = s.resetting ∧ (s.countMissed ended).freeCount = s.freeCount ∧
    (s.countMissed ended).pending = s.pending := by
  unfold State.countMissed
  simp [foldl_field (fun s : State => s.timer), foldl_field (fun s : State => s.line), foldl_field (fun s : State => s.frame), foldl_field (fun s : State => s.sync), foldl_field (fun s : State => s.cues), foldl_field (fun s : State => s.firing), foldl_field (fun s : State => s.power), foldl_field (fun s : State => s.port.config), foldl_field (fun s : State => s.port.locked), foldl_field (fun s : State => s.port.taken), foldl_field (fun s : State => s.port.response), foldl_field (fun s : State => s.port.lost), foldl_field (fun s : State => s.port.selected), foldl_field (fun s : State => s.port.fetching), foldl_field (fun s : State => s.port.sdo), foldl_field (fun s : State => s.resetting), foldl_field (fun s : State => s.freeCount), foldl_field (fun s : State => s.pending)]

@[simp] theorem State.expireClaimants_frame (round : Round) (s : State) :
    (s.expireClaimants round).timer = s.timer ∧ (s.expireClaimants round).line = s.line ∧
    (s.expireClaimants round).frame = s.frame ∧ (s.expireClaimants round).sync = s.sync ∧
    (s.expireClaimants round).cues = s.cues ∧ (s.expireClaimants round).firing = s.firing ∧
    (s.expireClaimants round).power = s.power ∧ (s.expireClaimants round).port.config = s.port.config ∧
    (s.expireClaimants round).port.locked = s.port.locked ∧
    (s.expireClaimants round).port.taken = s.port.taken ∧
    (s.expireClaimants round).port.response = s.port.response ∧
    (s.expireClaimants round).port.lost = s.port.lost ∧
    (s.expireClaimants round).port.selected = s.port.selected ∧
    (s.expireClaimants round).port.fetching = s.port.fetching ∧
    (s.expireClaimants round).port.sdo = s.port.sdo ∧ (s.expireClaimants round).resetting = s.resetting ∧
    (s.expireClaimants round).freeCount = s.freeCount ∧ (s.expireClaimants round).pending = s.pending := by
  unfold State.expireClaimants
  simp [foldl_field (fun s : State => s.timer), foldl_field (fun s : State => s.line), foldl_field (fun s : State => s.frame), foldl_field (fun s : State => s.sync), foldl_field (fun s : State => s.cues), foldl_field (fun s : State => s.firing), foldl_field (fun s : State => s.power), foldl_field (fun s : State => s.port.config), foldl_field (fun s : State => s.port.locked), foldl_field (fun s : State => s.port.taken), foldl_field (fun s : State => s.port.response), foldl_field (fun s : State => s.port.lost), foldl_field (fun s : State => s.port.selected), foldl_field (fun s : State => s.port.fetching), foldl_field (fun s : State => s.port.sdo), foldl_field (fun s : State => s.resetting), foldl_field (fun s : State => s.freeCount), foldl_field (fun s : State => s.pending)]

@[simp] theorem State.wrapTables_frame (round : Round) (s : State) :
    (s.wrapTables round).timer = s.timer ∧ (s.wrapTables round).line = s.line ∧
    (s.wrapTables round).frame = s.frame ∧ (s.wrapTables round).sync = s.sync ∧
    (s.wrapTables round).cues = s.cues ∧ (s.wrapTables round).firing = s.firing ∧
    (s.wrapTables round).power = s.power ∧ (s.wrapTables round).port.config = s.port.config ∧
    (s.wrapTables round).port.locked = s.port.locked ∧ (s.wrapTables round).port.taken = s.port.taken ∧
    (s.wrapTables round).port.response = s.port.response ∧ (s.wrapTables round).port.lost = s.port.lost ∧
    (s.wrapTables round).port.selected = s.port.selected ∧
    (s.wrapTables round).port.fetching = s.port.fetching ∧ (s.wrapTables round).port.sdo = s.port.sdo ∧
    (s.wrapTables round).resetting = s.resetting ∧ (s.wrapTables round).freeCount = s.freeCount ∧
    (s.wrapTables round).pending = s.pending := by
  unfold State.wrapTables
  simp

@[simp] theorem State.wrapStation_frame (round : Round) (s : State) :
    (s.wrapStation round).timer = s.timer ∧ (s.wrapStation round).frame = s.frame ∧
    (s.wrapStation round).sync = s.sync ∧ (s.wrapStation round).cues = s.cues ∧
    (s.wrapStation round).firing = s.firing ∧ (s.wrapStation round).power = s.power ∧
    (s.wrapStation round).port.config = s.port.config ∧ (s.wrapStation round).port.locked = s.port.locked ∧
    (s.wrapStation round).port.taken = s.port.taken ∧
    (s.wrapStation round).port.response = s.port.response ∧ (s.wrapStation round).port.lost = s.port.lost ∧
    (s.wrapStation round).port.selected = s.port.selected ∧
    (s.wrapStation round).port.fetching = s.port.fetching ∧ (s.wrapStation round).port.sdo = s.port.sdo ∧
    (s.wrapStation round).resetting = s.resetting ∧ (s.wrapStation round).freeCount = s.freeCount ∧
    (s.wrapStation round).pending = s.pending := by
  unfold State.wrapStation
  (repeat' split) <;> simp

@[simp] theorem State.sweep_frame (round : Round) (s : State) :
    (s.sweep round).timer = s.timer ∧ (s.sweep round).line = s.line ∧ (s.sweep round).frame = s.frame ∧
    (s.sweep round).member = s.member ∧ (s.sweep round).sync = s.sync ∧
    (s.sweep round).port.config = s.port.config ∧ (s.sweep round).port.locked = s.port.locked ∧
    (s.sweep round).port.taken = s.port.taken ∧ (s.sweep round).port.response = s.port.response ∧
    (s.sweep round).port.lost = s.port.lost ∧ (s.sweep round).port.selected = s.port.selected ∧
    (s.sweep round).port.fetching = s.port.fetching ∧ (s.sweep round).port.sdo = s.port.sdo ∧
    (s.sweep round).resetting = s.resetting ∧ (s.sweep round).freeCount = s.freeCount ∧
    (s.sweep round).pending = s.pending := by
  unfold State.sweep
  simp

@[simp] theorem State.wrapWork_frame (round : Round) (s : State) :
    (s.wrapWork round).timer = s.timer ∧ (s.wrapWork round).sync = s.sync ∧
    (s.wrapWork round).port.config = s.port.config ∧ (s.wrapWork round).port.locked = s.port.locked ∧
    (s.wrapWork round).port.taken = s.port.taken ∧ (s.wrapWork round).port.response = s.port.response ∧
    (s.wrapWork round).port.lost = s.port.lost ∧ (s.wrapWork round).port.selected = s.port.selected ∧
    (s.wrapWork round).port.fetching = s.port.fetching ∧ (s.wrapWork round).port.sdo = s.port.sdo ∧
    (s.wrapWork round).resetting = s.resetting ∧ (s.wrapWork round).freeCount = s.freeCount ∧
    (s.wrapWork round).pending = s.pending := by
  unfold State.wrapWork
  simp

@[simp] theorem State.announceWrap_frame (s : State) :
    (s.announceWrap).timer.lengthCode = s.timer.lengthCode ∧ (s.announceWrap).sync = s.sync ∧
    (s.announceWrap).port.config = s.port.config ∧ (s.announceWrap).port.locked = s.port.locked ∧
    (s.announceWrap).port.taken = s.port.taken ∧ (s.announceWrap).port.response = s.port.response ∧
    (s.announceWrap).port.lost = s.port.lost ∧ (s.announceWrap).port.selected = s.port.selected ∧
    (s.announceWrap).port.fetching = s.port.fetching ∧ (s.announceWrap).port.sdo = s.port.sdo ∧
    (s.announceWrap).resetting = s.resetting ∧ (s.announceWrap).freeCount = s.freeCount ∧
    (s.announceWrap).pending = s.pending := by
  unfold State.announceWrap
  dsimp only
  (repeat' split) <;> simp

@[simp] theorem State.seamArrival_frame (s : State) :
    (s.seamArrival).timer.lengthCode = s.timer.lengthCode ∧ (s.seamArrival).frame = s.frame ∧
    (s.seamArrival).member = s.member ∧ (s.seamArrival).sync = s.sync ∧ (s.seamArrival).cues = s.cues ∧
    (s.seamArrival).port = s.port ∧ (s.seamArrival).resetting = s.resetting ∧
    (s.seamArrival).freeCount = s.freeCount ∧ (s.seamArrival).pending = s.pending := by
  unfold State.seamArrival
  simp

@[simp] theorem State.announceSeam_frame (syncFirst : Bool) (s : State) :
    (s.announceSeam syncFirst).timer.lengthCode = s.timer.lengthCode ∧
    (s.announceSeam syncFirst).port.config = s.port.config ∧
    (s.announceSeam syncFirst).port.locked = s.port.locked ∧
    (s.announceSeam syncFirst).port.taken = s.port.taken ∧
    (s.announceSeam syncFirst).port.response = s.port.response ∧
    (s.announceSeam syncFirst).port.lost = s.port.lost ∧
    (s.announceSeam syncFirst).port.selected = s.port.selected ∧
    (s.announceSeam syncFirst).port.fetching = s.port.fetching ∧
    (s.announceSeam syncFirst).port.sdo = s.port.sdo ∧ (s.announceSeam syncFirst).resetting = s.resetting ∧
    (s.announceSeam syncFirst).freeCount = s.freeCount ∧ (s.announceSeam syncFirst).pending = s.pending := by
  unfold State.announceSeam
  dsimp only
  (repeat' split) <;> simp

@[simp] theorem State.found_frame (s : State) :
    (s.found).timer = s.timer ∧ (s.found).frame = s.frame ∧ (s.found).sync = s.sync ∧
    (s.found).cues = s.cues ∧ (s.found).firing = s.firing ∧ (s.found).power = s.power ∧
    (s.found).port.config = s.port.config ∧ (s.found).port.locked = s.port.locked ∧
    (s.found).port.taken = s.port.taken ∧ (s.found).port.response = s.port.response ∧
    (s.found).port.lost = s.port.lost ∧ (s.found).port.selected = s.port.selected ∧
    (s.found).port.fetching = s.port.fetching ∧ (s.found).port.sdo = s.port.sdo ∧
    (s.found).resetting = s.resetting ∧ (s.found).freeCount = s.freeCount ∧ (s.found).pending = s.pending := by
  unfold State.found
  (repeat' split) <;> simp

@[simp] theorem State.addPeer_frame (e : PeerEntry) (s : State) :
    (s.addPeer e).timer = s.timer ∧ (s.addPeer e).line = s.line ∧ (s.addPeer e).frame = s.frame ∧
    (s.addPeer e).sync = s.sync ∧ (s.addPeer e).cues = s.cues ∧ (s.addPeer e).firing = s.firing ∧
    (s.addPeer e).power = s.power ∧ (s.addPeer e).port.config = s.port.config ∧
    (s.addPeer e).port.locked = s.port.locked ∧ (s.addPeer e).port.taken = s.port.taken ∧
    (s.addPeer e).port.response = s.port.response ∧ (s.addPeer e).port.lost = s.port.lost ∧
    (s.addPeer e).port.selected = s.port.selected ∧ (s.addPeer e).port.fetching = s.port.fetching ∧
    (s.addPeer e).port.sdo = s.port.sdo ∧ (s.addPeer e).resetting = s.resetting ∧
    (s.addPeer e).freeCount = s.freeCount ∧ (s.addPeer e).pending = s.pending := by
  unfold State.addPeer
  (repeat' split) <;> simp

@[simp] theorem State.peerBeacon_frame (sender : Byte) (flag : BeaconFlag) (round : Round) (k : Slot) (report : PeerReport) (s : State) :
    (s.peerBeacon sender flag round k report).timer = s.timer ∧
    (s.peerBeacon sender flag round k report).line = s.line ∧
    (s.peerBeacon sender flag round k report).frame = s.frame ∧
    (s.peerBeacon sender flag round k report).sync = s.sync ∧
    (s.peerBeacon sender flag round k report).cues = s.cues ∧
    (s.peerBeacon sender flag round k report).firing = s.firing ∧
    (s.peerBeacon sender flag round k report).power = s.power ∧
    (s.peerBeacon sender flag round k report).port.config = s.port.config ∧
    (s.peerBeacon sender flag round k report).port.locked = s.port.locked ∧
    (s.peerBeacon sender flag round k report).port.taken = s.port.taken ∧
    (s.peerBeacon sender flag round k report).port.response = s.port.response ∧
    (s.peerBeacon sender flag round k report).port.lost = s.port.lost ∧
    (s.peerBeacon sender flag round k report).port.selected = s.port.selected ∧
    (s.peerBeacon sender flag round k report).port.fetching = s.port.fetching ∧
    (s.peerBeacon sender flag round k report).port.sdo = s.port.sdo ∧
    (s.peerBeacon sender flag round k report).resetting = s.resetting ∧
    (s.peerBeacon sender flag round k report).freeCount = s.freeCount ∧
    (s.peerBeacon sender flag round k report).pending = s.pending := by
  unfold State.peerBeacon
  (repeat' split) <;> simp

@[simp] theorem State.peerClaim_frame (sender : Byte) (round : Round) (s : State) :
    (s.peerClaim sender round).timer = s.timer ∧ (s.peerClaim sender round).line = s.line ∧
    (s.peerClaim sender round).frame = s.frame ∧ (s.peerClaim sender round).sync = s.sync ∧
    (s.peerClaim sender round).cues = s.cues ∧ (s.peerClaim sender round).firing = s.firing ∧
    (s.peerClaim sender round).power = s.power ∧ (s.peerClaim sender round).port.config = s.port.config ∧
    (s.peerClaim sender round).port.locked = s.port.locked ∧
    (s.peerClaim sender round).port.taken = s.port.taken ∧
    (s.peerClaim sender round).port.response = s.port.response ∧
    (s.peerClaim sender round).port.lost = s.port.lost ∧
    (s.peerClaim sender round).port.selected = s.port.selected ∧
    (s.peerClaim sender round).port.fetching = s.port.fetching ∧
    (s.peerClaim sender round).port.sdo = s.port.sdo ∧ (s.peerClaim sender round).resetting = s.resetting ∧
    (s.peerClaim sender round).freeCount = s.freeCount ∧ (s.peerClaim sender round).pending = s.pending := by
  unfold State.peerClaim
  (repeat' split) <;> simp

@[simp] theorem State.watchTarget_frame (s : State) :
    (s.watchTarget).timer = s.timer ∧ (s.watchTarget).sync = s.sync ∧ (s.watchTarget).cues = s.cues ∧
    (s.watchTarget).firing = s.firing ∧ (s.watchTarget).power = s.power ∧
    (s.watchTarget).port.config = s.port.config ∧ (s.watchTarget).port.locked = s.port.locked ∧
    (s.watchTarget).port.taken = s.port.taken ∧ (s.watchTarget).port.response = s.port.response ∧
    (s.watchTarget).port.lost = s.port.lost ∧ (s.watchTarget).port.selected = s.port.selected ∧
    (s.watchTarget).port.fetching = s.port.fetching ∧ (s.watchTarget).port.sdo = s.port.sdo ∧
    (s.watchTarget).resetting = s.resetting ∧ (s.watchTarget).freeCount = s.freeCount ∧
    (s.watchTarget).pending = s.pending := by
  unfold State.watchTarget
  (repeat' split) <;> simp

@[simp] theorem State.reportedStrike_frame (sender : Byte) (round : Round) (k : Slot) (map : BitVec 32) (s : State) :
    (s.reportedStrike sender round k map).timer = s.timer ∧
    (s.reportedStrike sender round k map).sync = s.sync ∧
    (s.reportedStrike sender round k map).cues = s.cues ∧
    (s.reportedStrike sender round k map).firing = s.firing ∧
    (s.reportedStrike sender round k map).power = s.power ∧
    (s.reportedStrike sender round k map).port.config = s.port.config ∧
    (s.reportedStrike sender round k map).port.locked = s.port.locked ∧
    (s.reportedStrike sender round k map).port.taken = s.port.taken ∧
    (s.reportedStrike sender round k map).port.response = s.port.response ∧
    (s.reportedStrike sender round k map).port.lost = s.port.lost ∧
    (s.reportedStrike sender round k map).port.selected = s.port.selected ∧
    (s.reportedStrike sender round k map).port.fetching = s.port.fetching ∧
    (s.reportedStrike sender round k map).port.sdo = s.port.sdo ∧
    (s.reportedStrike sender round k map).resetting = s.resetting ∧
    (s.reportedStrike sender round k map).freeCount = s.freeCount ∧
    (s.reportedStrike sender round k map).pending = s.pending := by
  unfold State.reportedStrike
  (repeat' split) <;> simp

@[simp] theorem State.lowerIdTie_frame (sender : Byte) (round : Round) (t : Slot) (s : State) :
    (s.lowerIdTie sender round t).timer = s.timer ∧ (s.lowerIdTie sender round t).sync = s.sync ∧
    (s.lowerIdTie sender round t).cues = s.cues ∧ (s.lowerIdTie sender round t).firing = s.firing ∧
    (s.lowerIdTie sender round t).power = s.power ∧
    (s.lowerIdTie sender round t).port.config = s.port.config ∧
    (s.lowerIdTie sender round t).port.locked = s.port.locked ∧
    (s.lowerIdTie sender round t).port.taken = s.port.taken ∧
    (s.lowerIdTie sender round t).port.response = s.port.response ∧
    (s.lowerIdTie sender round t).port.lost = s.port.lost ∧
    (s.lowerIdTie sender round t).port.selected = s.port.selected ∧
    (s.lowerIdTie sender round t).port.fetching = s.port.fetching ∧
    (s.lowerIdTie sender round t).port.sdo = s.port.sdo ∧
    (s.lowerIdTie sender round t).resetting = s.resetting ∧
    (s.lowerIdTie sender round t).freeCount = s.freeCount ∧
    (s.lowerIdTie sender round t).pending = s.pending := by
  unfold State.lowerIdTie
  (repeat' split) <;> simp

@[simp] theorem State.nativeBeacon_frame (sender : Byte) (flag : BeaconFlag) (round : Round) (k : Slot) (report : PeerReport) (map : BitVec 32) (s : State) :
    (s.nativeBeacon sender flag round k report map).timer = s.timer ∧
    (s.nativeBeacon sender flag round k report map).sync = s.sync ∧
    (s.nativeBeacon sender flag round k report map).cues = s.cues ∧
    (s.nativeBeacon sender flag round k report map).firing = s.firing ∧
    (s.nativeBeacon sender flag round k report map).power = s.power ∧
    (s.nativeBeacon sender flag round k report map).port.config = s.port.config ∧
    (s.nativeBeacon sender flag round k report map).port.locked = s.port.locked ∧
    (s.nativeBeacon sender flag round k report map).port.taken = s.port.taken ∧
    (s.nativeBeacon sender flag round k report map).port.response = s.port.response ∧
    (s.nativeBeacon sender flag round k report map).port.lost = s.port.lost ∧
    (s.nativeBeacon sender flag round k report map).port.selected = s.port.selected ∧
    (s.nativeBeacon sender flag round k report map).port.fetching = s.port.fetching ∧
    (s.nativeBeacon sender flag round k report map).port.sdo = s.port.sdo ∧
    (s.nativeBeacon sender flag round k report map).resetting = s.resetting ∧
    (s.nativeBeacon sender flag round k report map).freeCount = s.freeCount ∧
    (s.nativeBeacon sender flag round k report map).pending = s.pending := by
  unfold State.nativeBeacon
  (repeat' split) <;> simp

@[simp] theorem State.nativeClaim_frame (sender : Byte) (round : Round) (t : Slot) (s : State) :
    (s.nativeClaim sender round t).timer = s.timer ∧ (s.nativeClaim sender round t).sync = s.sync ∧
    (s.nativeClaim sender round t).cues = s.cues ∧ (s.nativeClaim sender round t).firing = s.firing ∧
    (s.nativeClaim sender round t).power = s.power ∧
    (s.nativeClaim sender round t).port.config = s.port.config ∧
    (s.nativeClaim sender round t).port.locked = s.port.locked ∧
    (s.nativeClaim sender round t).port.taken = s.port.taken ∧
    (s.nativeClaim sender round t).port.response = s.port.response ∧
    (s.nativeClaim sender round t).port.lost = s.port.lost ∧
    (s.nativeClaim sender round t).port.selected = s.port.selected ∧
    (s.nativeClaim sender round t).port.fetching = s.port.fetching ∧
    (s.nativeClaim sender round t).port.sdo = s.port.sdo ∧
    (s.nativeClaim sender round t).resetting = s.resetting ∧
    (s.nativeClaim sender round t).freeCount = s.freeCount ∧
    (s.nativeClaim sender round t).pending = s.pending := by
  unfold State.nativeClaim
  simp

@[simp] theorem State.foreignSettled_frame (c : Candidate) (s : State) :
    (s.foreignSettled c).timer = s.timer ∧ (s.foreignSettled c).line = s.line ∧
    (s.foreignSettled c).frame = s.frame ∧ (s.foreignSettled c).sync = s.sync ∧
    (s.foreignSettled c).cues = s.cues ∧ (s.foreignSettled c).firing = s.firing ∧
    (s.foreignSettled c).power = s.power ∧ (s.foreignSettled c).port = s.port ∧
    (s.foreignSettled c).resetting = s.resetting ∧ (s.foreignSettled c).freeCount = s.freeCount ∧
    (s.foreignSettled c).pending = s.pending := by
  unfold State.foreignSettled
  (repeat' split) <;> simp

@[simp] theorem State.settleBoundaries_frame (s : State) :
    (s.settleBoundaries).timer.lengthCode = s.timer.lengthCode ∧ (s.settleBoundaries).sync = s.sync ∧
    (s.settleBoundaries).port.config = s.port.config ∧ (s.settleBoundaries).port.locked = s.port.locked ∧
    (s.settleBoundaries).port.taken = s.port.taken ∧ (s.settleBoundaries).port.response = s.port.response ∧
    (s.settleBoundaries).port.lost = s.port.lost ∧ (s.settleBoundaries).port.selected = s.port.selected ∧
    (s.settleBoundaries).port.fetching = s.port.fetching ∧ (s.settleBoundaries).port.sdo = s.port.sdo ∧
    (s.settleBoundaries).resetting = s.resetting ∧ (s.settleBoundaries).freeCount = s.freeCount ∧
    (s.settleBoundaries).pending = s.pending := by
  unfold State.settleBoundaries
  simp

@[simp] theorem State.jumpClock_frame (after : Instant) (jump : Int) (s : State) :
    (s.jumpClock after jump).timer.lengthCode = s.timer.lengthCode ∧
    (s.jumpClock after jump).frame = s.frame ∧ (s.jumpClock after jump).member = s.member ∧
    (s.jumpClock after jump).sync = s.sync ∧ (s.jumpClock after jump).cues = s.cues ∧
    (s.jumpClock after jump).firing = s.firing ∧ (s.jumpClock after jump).port = s.port ∧
    (s.jumpClock after jump).resetting = s.resetting ∧ (s.jumpClock after jump).freeCount = s.freeCount ∧
    (s.jumpClock after jump).pending = s.pending := by
  unfold State.jumpClock
  (repeat' split) <;> simp

@[simp] theorem State.completeAlignment_frame (jump : Int) (s : State) :
    (s.completeAlignment jump).timer = s.timer ∧ (s.completeAlignment jump).line = s.line ∧
    (s.completeAlignment jump).frame = s.frame ∧ (s.completeAlignment jump).member = s.member ∧
    (s.completeAlignment jump).power = s.power ∧ (s.completeAlignment jump).port.config = s.port.config ∧
    (s.completeAlignment jump).port.locked = s.port.locked ∧
    (s.completeAlignment jump).port.taken = s.port.taken ∧
    (s.completeAlignment jump).port.response = s.port.response ∧
    (s.completeAlignment jump).port.lost = s.port.lost ∧
    (s.completeAlignment jump).port.selected = s.port.selected ∧
    (s.completeAlignment jump).port.fetching = s.port.fetching ∧
    (s.completeAlignment jump).port.sdo = s.port.sdo ∧ (s.completeAlignment jump).resetting = s.resetting ∧
    (s.completeAlignment jump).freeCount = s.freeCount ∧ (s.completeAlignment jump).pending = s.pending := by
  unfold State.completeAlignment
  simp

@[simp] theorem State.alignTo_frame (reference target : Instant) (s : State) :
    (s.alignTo reference target).timer.lengthCode = s.timer.lengthCode ∧
    (s.alignTo reference target).port.config = s.port.config ∧
    (s.alignTo reference target).port.locked = s.port.locked ∧
    (s.alignTo reference target).port.taken = s.port.taken ∧
    (s.alignTo reference target).port.response = s.port.response ∧
    (s.alignTo reference target).port.lost = s.port.lost ∧
    (s.alignTo reference target).port.selected = s.port.selected ∧
    (s.alignTo reference target).port.fetching = s.port.fetching ∧
    (s.alignTo reference target).port.sdo = s.port.sdo ∧
    (s.alignTo reference target).resetting = s.resetting ∧
    (s.alignTo reference target).freeCount = s.freeCount ∧ (s.alignTo reference target).pending = s.pending := by
  unfold State.alignTo
  simp

@[simp] theorem State.takeItem_frame (s : State) :
    (s.takeItem).timer = s.timer ∧ (s.takeItem).line = s.line ∧ (s.takeItem).member = s.member ∧
    (s.takeItem).sync = s.sync ∧ (s.takeItem).port.config = s.port.config ∧
    (s.takeItem).port.locked = s.port.locked ∧ (s.takeItem).port.taken = s.port.taken ∧
    (s.takeItem).port.response = s.port.response ∧ (s.takeItem).port.lost = s.port.lost ∧
    (s.takeItem).port.selected = s.port.selected ∧ (s.takeItem).port.fetching = s.port.fetching ∧
    (s.takeItem).port.sdo = s.port.sdo ∧ (s.takeItem).resetting = s.resetting ∧
    (s.takeItem).freeCount = s.freeCount ∧ (s.takeItem).pending = s.pending := by
  unfold State.takeItem
  (repeat' split) <;> simp

@[simp] theorem State.handOut_frame (flag : BeaconFlag) (sender : Byte) (offset : Int) (arrivalRound : Round) (items : List CarryItem) (age : Nat) (s : State) :
    (s.handOut flag sender offset arrivalRound items age).timer = s.timer ∧
    (s.handOut flag sender offset arrivalRound items age).line = s.line ∧
    (s.handOut flag sender offset arrivalRound items age).member = s.member ∧
    (s.handOut flag sender offset arrivalRound items age).cues = s.cues ∧
    (s.handOut flag sender offset arrivalRound items age).firing = s.firing ∧
    (s.handOut flag sender offset arrivalRound items age).power = s.power ∧
    (s.handOut flag sender offset arrivalRound items age).port = s.port ∧
    (s.handOut flag sender offset arrivalRound items age).resetting = s.resetting ∧
    (s.handOut flag sender offset arrivalRound items age).freeCount = s.freeCount ∧
    (s.handOut flag sender offset arrivalRound items age).pending = s.pending := by
  unfold State.handOut
  (repeat' split) <;> simp

@[simp] theorem State.takeBeacon_frame (r : WaitingReception) (offset : Int) (nominal : Instant) (flag : BeaconFlag) (sender : Byte) (round : Round) (k : Slot) (members lowest : Byte) (map : BitVec 32) (items : List CarryItem) (s : State) :

    (s.takeBeacon r offset nominal flag sender round k members lowest map items).timer.lengthCode = s.timer.lengthCode ∧
    (s.takeBeacon r offset nominal flag sender round k members lowest map items).port.config = s.port.config ∧
    (s.takeBeacon r offset nominal flag sender round k members lowest map items).port.locked = s.port.locked ∧
    (s.takeBeacon r offset nominal flag sender round k members lowest map items).port.taken = s.port.taken ∧
    (s.takeBeacon r offset nominal flag sender round k members lowest map items).port.response = s.port.response ∧
    (s.takeBeacon r offset nominal flag sender round k members lowest map items).port.lost = s.port.lost ∧
    (s.takeBeacon r offset nominal flag sender round k members lowest map items).port.selected = s.port.selected ∧
    (s.takeBeacon r offset nominal flag sender round k members lowest map items).port.fetching = s.port.fetching ∧
    (s.takeBeacon r offset nominal flag sender round k members lowest map items).port.sdo = s.port.sdo ∧
    (s.takeBeacon r offset nominal flag sender round k members lowest map items).resetting = s.resetting ∧
    (s.takeBeacon r offset nominal flag sender round k members lowest map items).freeCount = s.freeCount ∧
    (s.takeBeacon r offset nominal flag sender round k members lowest map items).pending = s.pending := by
  unfold State.takeBeacon
  (repeat' split) <;> simp

@[simp] theorem State.takeReception_frame (r : WaitingReception) (s : State) :
    (s.takeReception r).timer.lengthCode = s.timer.lengthCode ∧
    (s.takeReception r).port.config = s.port.config ∧ (s.takeReception r).port.locked = s.port.locked ∧
    (s.takeReception r).port.taken = s.port.taken ∧ (s.takeReception r).port.response = s.port.response ∧
    (s.takeReception r).port.lost = s.port.lost ∧ (s.takeReception r).port.selected = s.port.selected ∧
    (s.takeReception r).port.fetching = s.port.fetching ∧ (s.takeReception r).port.sdo = s.port.sdo ∧
    (s.takeReception r).resetting = s.resetting ∧ (s.takeReception r).freeCount = s.freeCount ∧
    (s.takeReception r).pending = s.pending := by
  unfold State.takeReception
  dsimp only
  (repeat' split) <;> simp

@[simp] theorem State.parseNext_frame (s : State) :
    (s.parseNext).timer.lengthCode = s.timer.lengthCode ∧ (s.parseNext).port.config = s.port.config ∧
    (s.parseNext).port.locked = s.port.locked ∧ (s.parseNext).port.taken = s.port.taken ∧
    (s.parseNext).port.response = s.port.response ∧ (s.parseNext).port.lost = s.port.lost ∧
    (s.parseNext).port.selected = s.port.selected ∧ (s.parseNext).port.fetching = s.port.fetching ∧
    (s.parseNext).port.sdo = s.port.sdo ∧ (s.parseNext).resetting = s.resetting ∧
    (s.parseNext).freeCount = s.freeCount ∧ (s.parseNext).pending = s.pending := by
  unfold State.parseNext
  (repeat' split) <;> simp

@[simp] theorem State.drainItems_frame (s : State) :
    (s.drainItems).timer = s.timer ∧ (s.drainItems).line = s.line ∧ (s.drainItems).member = s.member ∧
    (s.drainItems).sync = s.sync ∧ (s.drainItems).port.config = s.port.config ∧
    (s.drainItems).port.locked = s.port.locked ∧ (s.drainItems).port.taken = s.port.taken ∧
    (s.drainItems).port.response = s.port.response ∧ (s.drainItems).port.lost = s.port.lost ∧
    (s.drainItems).port.selected = s.port.selected ∧ (s.drainItems).port.fetching = s.port.fetching ∧
    (s.drainItems).port.sdo = s.port.sdo ∧ (s.drainItems).resetting = s.resetting ∧
    (s.drainItems).freeCount = s.freeCount ∧ (s.drainItems).pending = s.pending := by
  unfold State.drainItems
  simp [iterate_field (fun s : State => s.timer), iterate_field (fun s : State => s.line), iterate_field (fun s : State => s.member), iterate_field (fun s : State => s.sync), iterate_field (fun s : State => s.port.config), iterate_field (fun s : State => s.port.locked), iterate_field (fun s : State => s.port.taken), iterate_field (fun s : State => s.port.response), iterate_field (fun s : State => s.port.lost), iterate_field (fun s : State => s.port.selected), iterate_field (fun s : State => s.port.fetching), iterate_field (fun s : State => s.port.sdo), iterate_field (fun s : State => s.resetting), iterate_field (fun s : State => s.freeCount), iterate_field (fun s : State => s.pending)]

@[simp] theorem State.drainReceptions_frame (s : State) :
    (s.drainReceptions).timer.lengthCode = s.timer.lengthCode ∧
    (s.drainReceptions).port.config = s.port.config ∧ (s.drainReceptions).port.locked = s.port.locked ∧
    (s.drainReceptions).port.taken = s.port.taken ∧ (s.drainReceptions).port.response = s.port.response ∧
    (s.drainReceptions).port.lost = s.port.lost ∧ (s.drainReceptions).port.selected = s.port.selected ∧
    (s.drainReceptions).port.fetching = s.port.fetching ∧ (s.drainReceptions).port.sdo = s.port.sdo ∧
    (s.drainReceptions).resetting = s.resetting ∧ (s.drainReceptions).freeCount = s.freeCount ∧
    (s.drainReceptions).pending = s.pending := by
  unfold State.drainReceptions
  simp [iterate_field (fun s : State => s.timer.lengthCode), iterate_field (fun s : State => s.port.config), iterate_field (fun s : State => s.port.locked), iterate_field (fun s : State => s.port.taken), iterate_field (fun s : State => s.port.response), iterate_field (fun s : State => s.port.lost), iterate_field (fun s : State => s.port.selected), iterate_field (fun s : State => s.port.fetching), iterate_field (fun s : State => s.port.sdo), iterate_field (fun s : State => s.resetting), iterate_field (fun s : State => s.freeCount), iterate_field (fun s : State => s.pending)]

@[simp] theorem State.finishReceptions_frame (s : State) :
    (s.finishReceptions).timer.lengthCode = s.timer.lengthCode ∧
    (s.finishReceptions).port.config = s.port.config ∧ (s.finishReceptions).port.locked = s.port.locked ∧
    (s.finishReceptions).port.taken = s.port.taken ∧ (s.finishReceptions).port.response = s.port.response ∧
    (s.finishReceptions).port.lost = s.port.lost ∧ (s.finishReceptions).port.selected = s.port.selected ∧
    (s.finishReceptions).port.fetching = s.port.fetching ∧ (s.finishReceptions).port.sdo = s.port.sdo ∧
    (s.finishReceptions).resetting = s.resetting ∧ (s.finishReceptions).freeCount = s.freeCount ∧
    (s.finishReceptions).pending = s.pending := by
  unfold State.finishReceptions
  (repeat' split) <;> simp

@[simp] theorem State.doze_frame (wake : Option Instant) (s : State) :
    (s.doze wake).timer = s.timer ∧ (s.doze wake).line = s.line ∧ (s.doze wake).frame = s.frame ∧
    (s.doze wake).member = s.member ∧ (s.doze wake).sync = s.sync ∧ (s.doze wake).cues = s.cues ∧
    (s.doze wake).firing = s.firing ∧ (s.doze wake).port = s.port ∧ (s.doze wake).resetting = s.resetting ∧
    (s.doze wake).freeCount = s.freeCount ∧ (s.doze wake).pending = s.pending := by
  unfold State.doze
  simp

@[simp] theorem State.enterDoze_frame (s : State) :
    (s.enterDoze).timer = s.timer ∧ (s.enterDoze).line = s.line ∧ (s.enterDoze).frame = s.frame ∧
    (s.enterDoze).member = s.member ∧ (s.enterDoze).sync = s.sync ∧ (s.enterDoze).cues = s.cues ∧
    (s.enterDoze).firing = s.firing ∧ (s.enterDoze).port = s.port ∧ (s.enterDoze).resetting = s.resetting ∧
    (s.enterDoze).freeCount = s.freeCount ∧ (s.enterDoze).pending = s.pending := by
  unfold State.enterDoze
  (repeat' split) <;> simp

@[simp] theorem State.wakeByPlan_frame (s : State) :
    (s.wakeByPlan).timer = s.timer ∧ (s.wakeByPlan).line = s.line ∧ (s.wakeByPlan).frame = s.frame ∧
    (s.wakeByPlan).member = s.member ∧ (s.wakeByPlan).sync = s.sync ∧ (s.wakeByPlan).cues = s.cues ∧
    (s.wakeByPlan).firing = s.firing ∧ (s.wakeByPlan).port = s.port ∧
    (s.wakeByPlan).resetting = s.resetting ∧ (s.wakeByPlan).freeCount = s.freeCount ∧
    (s.wakeByPlan).pending = s.pending := by
  unfold State.wakeByPlan
  (repeat' split) <;> simp

@[simp] theorem State.hfUp_frame (s : State) :
    (s.hfUp).timer = s.timer ∧ (s.hfUp).frame = s.frame ∧ (s.hfUp).member = s.member ∧
    (s.hfUp).sync = s.sync ∧ (s.hfUp).cues = s.cues ∧ (s.hfUp).firing = s.firing ∧ (s.hfUp).port = s.port ∧
    (s.hfUp).resetting = s.resetting ∧ (s.hfUp).freeCount = s.freeCount ∧ (s.hfUp).pending = s.pending := by
  unfold State.hfUp
  dsimp only
  (repeat' split) <;> simp

@[simp] theorem State.hfLimit_frame (s : State) :
    (s.hfLimit).timer = s.timer ∧ (s.hfLimit).frame = s.frame ∧ (s.hfLimit).member = s.member ∧
    (s.hfLimit).sync = s.sync ∧ (s.hfLimit).cues = s.cues ∧ (s.hfLimit).firing = s.firing ∧
    (s.hfLimit).port = s.port ∧ (s.hfLimit).resetting = s.resetting ∧ (s.hfLimit).freeCount = s.freeCount ∧
    (s.hfLimit).pending = s.pending := by
  unfold State.hfLimit
  (repeat' split) <;> simp

@[simp] theorem State.freeSeam_frame (s : State) :
    (s.freeSeam).timer.lengthCode = s.timer.lengthCode ∧ (s.freeSeam).port.config = s.port.config ∧
    (s.freeSeam).port.locked = s.port.locked ∧ (s.freeSeam).port.taken = s.port.taken ∧
    (s.freeSeam).port.response = s.port.response ∧ (s.freeSeam).port.lost = s.port.lost ∧
    (s.freeSeam).port.selected = s.port.selected ∧ (s.freeSeam).port.fetching = s.port.fetching ∧
    (s.freeSeam).port.sdo = s.port.sdo ∧ (s.freeSeam).resetting = s.resetting ∧
    (s.freeSeam).pending = s.pending := by
  unfold State.freeSeam
  (repeat' split) <;> simp

@[simp] theorem State.recordHeld_frame (s : State) :
    (s.recordHeld).timer = s.timer ∧ (s.recordHeld).line = s.line ∧ (s.recordHeld).frame = s.frame ∧
    (s.recordHeld).member = s.member ∧ (s.recordHeld).sync = s.sync ∧ (s.recordHeld).power = s.power ∧
    (s.recordHeld).port.config = s.port.config ∧ (s.recordHeld).port.locked = s.port.locked ∧
    (s.recordHeld).port.taken = s.port.taken ∧ (s.recordHeld).port.response = s.port.response ∧
    (s.recordHeld).port.lost = s.port.lost ∧ (s.recordHeld).port.selected = s.port.selected ∧
    (s.recordHeld).port.fetching = s.port.fetching ∧ (s.recordHeld).port.sdo = s.port.sdo ∧
    (s.recordHeld).resetting = s.resetting ∧ (s.recordHeld).freeCount = s.freeCount ∧
    (s.recordHeld).pending = s.pending := by
  unfold State.recordHeld
  (repeat' split) <;> simp

@[simp] theorem State.finishPeriod_frame (s : State) :
    (s.finishPeriod).timer.lengthCode = s.timer.lengthCode ∧ (s.finishPeriod).port.config = s.port.config ∧
    (s.finishPeriod).port.locked = s.port.locked ∧ (s.finishPeriod).port.taken = s.port.taken ∧
    (s.finishPeriod).port.response = s.port.response ∧ (s.finishPeriod).port.lost = s.port.lost ∧
    (s.finishPeriod).port.selected = s.port.selected ∧ (s.finishPeriod).port.fetching = s.port.fetching ∧
    (s.finishPeriod).port.sdo = s.port.sdo ∧ (s.finishPeriod).resetting = s.resetting ∧
    (s.finishPeriod).pending = s.pending := by
  unfold State.finishPeriod
  simp

@[simp] theorem State.tick_frame (irrx : List Bool) (s : State) :
    (s.tick irrx).timer.lengthCode = s.timer.lengthCode ∧ (s.tick irrx).member = s.member ∧
    (s.tick irrx).sync = s.sync ∧ (s.tick irrx).cues = s.cues ∧ (s.tick irrx).port = s.port ∧
    (s.tick irrx).resetting = s.resetting ∧ (s.tick irrx).freeCount = s.freeCount ∧
    (s.tick irrx).pending = s.pending := by
  unfold State.tick
  dsimp only
  (repeat' split) <;> simp [RoundTimer.tick]

@[simp] theorem State.startSurvey_frame (s : State) :
    (s.startSurvey).timer = s.timer ∧ (s.startSurvey).frame = s.frame ∧ (s.startSurvey).sync = s.sync ∧
    (s.startSurvey).cues = s.cues ∧ (s.startSurvey).firing = s.firing ∧ (s.startSurvey).power = s.power ∧
    (s.startSurvey).port = s.port ∧ (s.startSurvey).resetting = s.resetting ∧
    (s.startSurvey).freeCount = s.freeCount ∧ (s.startSurvey).pending = s.pending := by
  unfold State.startSurvey
  simp

@[simp] theorem State.assertSelect_frame (s : State) :
    (s.assertSelect).timer = s.timer ∧ (s.assertSelect).line = s.line ∧ (s.assertSelect).frame = s.frame ∧
    (s.assertSelect).member = s.member ∧ (s.assertSelect).sync = s.sync ∧ (s.assertSelect).cues = s.cues ∧
    (s.assertSelect).firing = s.firing ∧ (s.assertSelect).port.config = s.port.config ∧
    (s.assertSelect).port.locked = s.port.locked ∧ (s.assertSelect).port.taken = s.port.taken ∧
    (s.assertSelect).port.response = s.port.response ∧ (s.assertSelect).port.lost = s.port.lost ∧
    (s.assertSelect).port.events = s.port.events ∧ (s.assertSelect).port.fetching = s.port.fetching ∧
    (s.assertSelect).port.sdo = s.port.sdo ∧ (s.assertSelect).resetting = s.resetting ∧
    (s.assertSelect).freeCount = s.freeCount ∧ (s.assertSelect).pending = s.pending := by
  unfold State.assertSelect
  simp

@[simp] theorem State.inSelect_frame (s : State) :
    (s.inSelect).timer = s.timer ∧ (s.inSelect).line = s.line ∧ (s.inSelect).frame = s.frame ∧
    (s.inSelect).member = s.member ∧ (s.inSelect).sync = s.sync ∧ (s.inSelect).cues = s.cues ∧
    (s.inSelect).firing = s.firing ∧ (s.inSelect).port.config = s.port.config ∧
    (s.inSelect).port.locked = s.port.locked ∧ (s.inSelect).port.taken = s.port.taken ∧
    (s.inSelect).port.response = s.port.response ∧ (s.inSelect).port.lost = s.port.lost ∧
    (s.inSelect).port.events = s.port.events ∧ (s.inSelect).port.fetching = s.port.fetching ∧
    (s.inSelect).port.sdo = s.port.sdo ∧ (s.inSelect).resetting = s.resetting ∧
    (s.inSelect).freeCount = s.freeCount ∧ (s.inSelect).pending = s.pending := by
  unfold State.inSelect
  (repeat' split) <;> simp

@[simp] theorem runStart_frame (s : State) :
    (runStart s).1.timer = s.timer ∧ (runStart s).1.frame = s.frame ∧ (runStart s).1.sync = s.sync ∧
    (runStart s).1.cues = s.cues ∧ (runStart s).1.firing = s.firing ∧ (runStart s).1.power = s.power ∧
    (runStart s).1.port = s.port ∧ (runStart s).1.resetting = s.resetting ∧
    (runStart s).1.freeCount = s.freeCount ∧ (runStart s).1.pending = s.pending := by
  unfold runStart
  (repeat' split) <;> simp

@[simp] theorem runLeave_frame (s : State) :
    (runLeave s).1.timer = s.timer ∧ (runLeave s).1.port.config = s.port.config ∧
    (runLeave s).1.port.locked = s.port.locked ∧ (runLeave s).1.port.taken = s.port.taken ∧
    (runLeave s).1.port.response = s.port.response ∧ (runLeave s).1.port.lost = s.port.lost ∧
    (runLeave s).1.port.selected = s.port.selected ∧ (runLeave s).1.port.fetching = s.port.fetching ∧
    (runLeave s).1.port.sdo = s.port.sdo ∧ (runLeave s).1.resetting = s.resetting ∧
    (runLeave s).1.freeCount = s.freeCount ∧ (runLeave s).1.pending = s.pending := by
  unfold runLeave
  (repeat' split) <;> simp

@[simp] theorem runRestart_frame (s : State) :
    (runRestart s).1.timer = s.timer ∧ (runRestart s).1.port.config = s.port.config ∧
    (runRestart s).1.port.locked = s.port.locked ∧ (runRestart s).1.port.taken = s.port.taken ∧
    (runRestart s).1.port.response = s.port.response ∧ (runRestart s).1.port.lost = s.port.lost ∧
    (runRestart s).1.port.selected = s.port.selected ∧ (runRestart s).1.port.fetching = s.port.fetching ∧
    (runRestart s).1.port.sdo = s.port.sdo ∧ (runRestart s).1.resetting = s.resetting ∧
    (runRestart s).1.freeCount = s.freeCount ∧ (runRestart s).1.pending = s.pending := by
  unfold runRestart
  (repeat' split) <;> simp

@[simp] theorem runPost_frame (p : PostParams) (s : State) :
    (runPost p s).1.timer = s.timer ∧ (runPost p s).1.line = s.line ∧ (runPost p s).1.frame = s.frame ∧
    (runPost p s).1.member = s.member ∧ (runPost p s).1.sync = s.sync ∧ (runPost p s).1.firing = s.firing ∧
    (runPost p s).1.power = s.power ∧ (runPost p s).1.port.config = s.port.config ∧
    (runPost p s).1.port.locked = s.port.locked ∧ (runPost p s).1.port.taken = s.port.taken ∧
    (runPost p s).1.port.response = s.port.response ∧ (runPost p s).1.port.lost = s.port.lost ∧
    (runPost p s).1.port.selected = s.port.selected ∧ (runPost p s).1.port.fetching = s.port.fetching ∧
    (runPost p s).1.port.sdo = s.port.sdo ∧ (runPost p s).1.resetting = s.resetting ∧
    (runPost p s).1.freeCount = s.freeCount ∧ (runPost p s).1.pending = s.pending := by
  unfold runPost
  split <;> simp

@[simp] theorem runWithdraw_frame (seq : Byte) (s : State) :
    (runWithdraw seq s).1.timer = s.timer ∧ (runWithdraw seq s).1.line = s.line ∧
    (runWithdraw seq s).1.frame = s.frame ∧ (runWithdraw seq s).1.member = s.member ∧
    (runWithdraw seq s).1.sync = s.sync ∧ (runWithdraw seq s).1.firing = s.firing ∧
    (runWithdraw seq s).1.power = s.power ∧ (runWithdraw seq s).1.port = s.port ∧
    (runWithdraw seq s).1.resetting = s.resetting ∧ (runWithdraw seq s).1.freeCount = s.freeCount ∧
    (runWithdraw seq s).1.pending = s.pending := by
  unfold runWithdraw
  (repeat' split) <;> simp

@[simp] theorem runReadStatus_frame (s : State) :
    (runReadStatus s).1.timer = s.timer ∧ (runReadStatus s).1.line = s.line ∧
    (runReadStatus s).1.frame = s.frame ∧ (runReadStatus s).1.member = s.member ∧
    (runReadStatus s).1.sync = s.sync ∧ (runReadStatus s).1.cues = s.cues ∧
    (runReadStatus s).1.firing = s.firing ∧ (runReadStatus s).1.port = s.port ∧
    (runReadStatus s).1.resetting = s.resetting ∧ (runReadStatus s).1.freeCount = s.freeCount ∧
    (runReadStatus s).1.pending = s.pending := by
  unfold runReadStatus
  simp

@[simp] theorem runReadCue_frame (index : Byte) (s : State) :
    (runReadCue index s).1.timer = s.timer ∧ (runReadCue index s).1.line = s.line ∧
    (runReadCue index s).1.frame = s.frame ∧ (runReadCue index s).1.member = s.member ∧
    (runReadCue index s).1.sync = s.sync ∧ (runReadCue index s).1.cues = s.cues ∧
    (runReadCue index s).1.firing = s.firing ∧ (runReadCue index s).1.power = s.power ∧
    (runReadCue index s).1.port = s.port ∧ (runReadCue index s).1.resetting = s.resetting ∧
    (runReadCue index s).1.freeCount = s.freeCount ∧ (runReadCue index s).1.pending = s.pending := by
  unfold runReadCue
  (repeat' split) <;> simp

@[simp] theorem runReadPeer_frame (index : Byte) (s : State) :
    (runReadPeer index s).1.timer = s.timer ∧ (runReadPeer index s).1.line = s.line ∧
    (runReadPeer index s).1.frame = s.frame ∧ (runReadPeer index s).1.member = s.member ∧
    (runReadPeer index s).1.sync = s.sync ∧ (runReadPeer index s).1.cues = s.cues ∧
    (runReadPeer index s).1.firing = s.firing ∧ (runReadPeer index s).1.power = s.power ∧
    (runReadPeer index s).1.port = s.port ∧ (runReadPeer index s).1.resetting = s.resetting ∧
    (runReadPeer index s).1.freeCount = s.freeCount ∧ (runReadPeer index s).1.pending = s.pending := by
  unfold runReadPeer
  (repeat' split) <;> simp

@[simp] theorem runReadSlots_frame (s : State) :
    (runReadSlots s).1.timer = s.timer ∧ (runReadSlots s).1.line = s.line ∧
    (runReadSlots s).1.frame = s.frame ∧ (runReadSlots s).1.member = s.member ∧
    (runReadSlots s).1.sync = s.sync ∧ (runReadSlots s).1.cues = s.cues ∧
    (runReadSlots s).1.firing = s.firing ∧ (runReadSlots s).1.power = s.power ∧
    (runReadSlots s).1.port = s.port ∧ (runReadSlots s).1.resetting = s.resetting ∧
    (runReadSlots s).1.freeCount = s.freeCount ∧ (runReadSlots s).1.pending = s.pending := by
  unfold runReadSlots
  simp

@[simp] theorem runTakeEvent_frame (s : State) :
    (runTakeEvent s).1.timer = s.timer ∧ (runTakeEvent s).1.line = s.line ∧
    (runTakeEvent s).1.frame = s.frame ∧ (runTakeEvent s).1.member = s.member ∧
    (runTakeEvent s).1.sync = s.sync ∧ (runTakeEvent s).1.cues = s.cues ∧
    (runTakeEvent s).1.firing = s.firing ∧ (runTakeEvent s).1.power = s.power ∧
    (runTakeEvent s).1.port.config = s.port.config ∧ (runTakeEvent s).1.port.locked = s.port.locked ∧
    (runTakeEvent s).1.port.taken = s.port.taken ∧ (runTakeEvent s).1.port.response = s.port.response ∧
    (runTakeEvent s).1.port.lost = s.port.lost ∧ (runTakeEvent s).1.port.selected = s.port.selected ∧
    (runTakeEvent s).1.port.fetching = s.port.fetching ∧ (runTakeEvent s).1.port.sdo = s.port.sdo ∧
    (runTakeEvent s).1.resetting = s.resetting ∧ (runTakeEvent s).1.freeCount = s.freeCount ∧
    (runTakeEvent s).1.pending = s.pending := by
  unfold runTakeEvent
  (repeat' split) <;> simp

/-! ## Inside the membership controller -/

/-- What one turn of a fold over the controller leaves, the fold leaves. -/
theorem foldl_member {α β : Type} (g : Membership → β) {f : Membership → α → Membership}
    (h : ∀ m x, g (f m x) = g m) (l : List α) (m : Membership) : g (l.foldl f m) = g m := by
  induction l generalizing m with
  | nil => rfl
  | cons x xs ih => exact (ih _).trans (h m x)

@[simp] theorem Membership.setKind_frame (k : Slot) (kind : SlotKind) (m : Membership) :
    (m.setKind k kind).station = m.station ∧ (m.setKind k kind).peers = m.peers ∧
    (m.setKind k kind).lfsr = m.lfsr ∧ (m.setKind k kind).surveyEntry = m.surveyEntry ∧
    (m.setKind k kind).surveyEnd = m.surveyEnd ∧ (m.setKind k kind).target = m.target ∧
    (m.setKind k kind).claim = m.claim ∧ (m.setKind k kind).tries = m.tries ∧
    (m.setKind k kind).ownSlot = m.ownSlot ∧ (m.setKind k kind).claimRound = m.claimRound ∧
    (m.setKind k kind).cleanRounds = m.cleanRounds ∧ (m.setKind k kind).strikeNow = m.strikeNow ∧
    (m.setKind k kind).strikeBefore = m.strikeBefore ∧ (m.setKind k kind).ownOutcome = m.ownOutcome ∧
    (m.setKind k kind).backoff = m.backoff ∧ (m.setKind k kind).leavingBeacons = m.leavingBeacons ∧
    (m.setKind k kind).candidate = m.candidate := by
  simp only [Membership.setKind, and_self]

@[simp] theorem Membership.mapKinds_frame (f : Slot → SlotKind → SlotKind) (m : Membership) :
    (m.mapKinds f).station = m.station ∧ (m.mapKinds f).peers = m.peers ∧ (m.mapKinds f).lfsr = m.lfsr ∧
    (m.mapKinds f).surveyEntry = m.surveyEntry ∧ (m.mapKinds f).surveyEnd = m.surveyEnd ∧
    (m.mapKinds f).target = m.target ∧ (m.mapKinds f).claim = m.claim ∧ (m.mapKinds f).tries = m.tries ∧
    (m.mapKinds f).ownSlot = m.ownSlot ∧ (m.mapKinds f).claimRound = m.claimRound ∧
    (m.mapKinds f).cleanRounds = m.cleanRounds ∧ (m.mapKinds f).strikeNow = m.strikeNow ∧
    (m.mapKinds f).strikeBefore = m.strikeBefore ∧ (m.mapKinds f).ownOutcome = m.ownOutcome ∧
    (m.mapKinds f).backoff = m.backoff ∧ (m.mapKinds f).leavingBeacons = m.leavingBeacons ∧
    (m.mapKinds f).candidate = m.candidate := by
  simp only [Membership.mapKinds, and_self]

@[simp] theorem Membership.record_frame (k : Slot) (o : SlotOutcome) (round : Round) (m : Membership) :
    (m.record k o round).station = m.station ∧ (m.record k o round).peers = m.peers ∧
    (m.record k o round).lfsr = m.lfsr ∧ (m.record k o round).surveyEntry = m.surveyEntry ∧
    (m.record k o round).surveyEnd = m.surveyEnd ∧ (m.record k o round).target = m.target ∧
    (m.record k o round).claim = m.claim ∧ (m.record k o round).tries = m.tries ∧
    (m.record k o round).ownSlot = m.ownSlot ∧ (m.record k o round).claimRound = m.claimRound ∧
    (m.record k o round).cleanRounds = m.cleanRounds ∧ (m.record k o round).strikeNow = m.strikeNow ∧
    (m.record k o round).strikeBefore = m.strikeBefore ∧ (m.record k o round).ownOutcome = m.ownOutcome ∧
    (m.record k o round).backoff = m.backoff ∧ (m.record k o round).leavingBeacons = m.leavingBeacons ∧
    (m.record k o round).candidate = m.candidate := by
  simp only [Membership.record, and_self]

@[simp] theorem Membership.release_frame (k : Slot) (giver : Option Byte) (m : Membership) :
    (m.release k giver).station = m.station ∧ (m.release k giver).peers = m.peers ∧
    (m.release k giver).lfsr = m.lfsr ∧ (m.release k giver).surveyEntry = m.surveyEntry ∧
    (m.release k giver).surveyEnd = m.surveyEnd ∧ (m.release k giver).target = m.target ∧
    (m.release k giver).claim = m.claim ∧ (m.release k giver).tries = m.tries ∧
    (m.release k giver).ownSlot = m.ownSlot ∧ (m.release k giver).claimRound = m.claimRound ∧
    (m.release k giver).cleanRounds = m.cleanRounds ∧ (m.release k giver).strikeNow = m.strikeNow ∧
    (m.release k giver).strikeBefore = m.strikeBefore ∧ (m.release k giver).ownOutcome = m.ownOutcome ∧
    (m.release k giver).backoff = m.backoff ∧ (m.release k giver).leavingBeacons = m.leavingBeacons ∧
    (m.release k giver).candidate = m.candidate := by
  simp [Membership.release]

@[simp] theorem Membership.giveUp_frame (id : Byte) (kept : Option Slot) (m : Membership) :
    (m.giveUp id kept).station = m.station ∧ (m.giveUp id kept).peers = m.peers ∧
    (m.giveUp id kept).lfsr = m.lfsr ∧ (m.giveUp id kept).surveyEntry = m.surveyEntry ∧
    (m.giveUp id kept).surveyEnd = m.surveyEnd ∧ (m.giveUp id kept).target = m.target ∧
    (m.giveUp id kept).claim = m.claim ∧ (m.giveUp id kept).tries = m.tries ∧
    (m.giveUp id kept).ownSlot = m.ownSlot ∧ (m.giveUp id kept).claimRound = m.claimRound ∧
    (m.giveUp id kept).cleanRounds = m.cleanRounds ∧ (m.giveUp id kept).strikeNow = m.strikeNow ∧
    (m.giveUp id kept).strikeBefore = m.strikeBefore ∧ (m.giveUp id kept).ownOutcome = m.ownOutcome ∧
    (m.giveUp id kept).backoff = m.backoff ∧ (m.giveUp id kept).leavingBeacons = m.leavingBeacons ∧
    (m.giveUp id kept).candidate = m.candidate := by
  simp [Membership.giveUp]

@[simp] theorem Membership.releaseIfHolder_frame (k : Slot) (id : Byte) (m : Membership) :
    (m.releaseIfHolder k id).station = m.station ∧ (m.releaseIfHolder k id).peers = m.peers ∧
    (m.releaseIfHolder k id).lfsr = m.lfsr ∧ (m.releaseIfHolder k id).surveyEntry = m.surveyEntry ∧
    (m.releaseIfHolder k id).surveyEnd = m.surveyEnd ∧ (m.releaseIfHolder k id).target = m.target ∧
    (m.releaseIfHolder k id).claim = m.claim ∧ (m.releaseIfHolder k id).tries = m.tries ∧
    (m.releaseIfHolder k id).ownSlot = m.ownSlot ∧ (m.releaseIfHolder k id).claimRound = m.claimRound ∧
    (m.releaseIfHolder k id).cleanRounds = m.cleanRounds ∧
    (m.releaseIfHolder k id).strikeNow = m.strikeNow ∧
    (m.releaseIfHolder k id).strikeBefore = m.strikeBefore ∧
    (m.releaseIfHolder k id).ownOutcome = m.ownOutcome ∧ (m.releaseIfHolder k id).backoff = m.backoff ∧
    (m.releaseIfHolder k id).leavingBeacons = m.leavingBeacons ∧
    (m.releaseIfHolder k id).candidate = m.candidate := by
  unfold Membership.releaseIfHolder
  split <;> simp

@[simp] theorem Membership.markUnheard_frame (ended : Round) (m : Membership) :
    (m.markUnheard ended).station = m.station ∧ (m.markUnheard ended).peers = m.peers ∧
    (m.markUnheard ended).lfsr = m.lfsr ∧ (m.markUnheard ended).surveyEntry = m.surveyEntry ∧
    (m.markUnheard ended).surveyEnd = m.surveyEnd ∧ (m.markUnheard ended).target = m.target ∧
    (m.markUnheard ended).claim = m.claim ∧ (m.markUnheard ended).tries = m.tries ∧
    (m.markUnheard ended).ownSlot = m.ownSlot ∧ (m.markUnheard ended).claimRound = m.claimRound ∧
    (m.markUnheard ended).cleanRounds = m.cleanRounds ∧ (m.markUnheard ended).strikeNow = m.strikeNow ∧
    (m.markUnheard ended).strikeBefore = m.strikeBefore ∧ (m.markUnheard ended).ownOutcome = m.ownOutcome ∧
    (m.markUnheard ended).backoff = m.backoff ∧ (m.markUnheard ended).leavingBeacons = m.leavingBeacons ∧
    (m.markUnheard ended).candidate = m.candidate := by
  simp only [Membership.markUnheard, and_self]

@[simp] theorem Membership.expireClaimed_frame (round : Round) (m : Membership) :
    (m.expireClaimed round).station = m.station ∧ (m.expireClaimed round).peers = m.peers ∧
    (m.expireClaimed round).lfsr = m.lfsr ∧ (m.expireClaimed round).surveyEntry = m.surveyEntry ∧
    (m.expireClaimed round).surveyEnd = m.surveyEnd ∧ (m.expireClaimed round).target = m.target ∧
    (m.expireClaimed round).claim = m.claim ∧ (m.expireClaimed round).tries = m.tries ∧
    (m.expireClaimed round).ownSlot = m.ownSlot ∧ (m.expireClaimed round).claimRound = m.claimRound ∧
    (m.expireClaimed round).cleanRounds = m.cleanRounds ∧ (m.expireClaimed round).strikeNow = m.strikeNow ∧
    (m.expireClaimed round).strikeBefore = m.strikeBefore ∧
    (m.expireClaimed round).ownOutcome = m.ownOutcome ∧ (m.expireClaimed round).backoff = m.backoff ∧
    (m.expireClaimed round).leavingBeacons = m.leavingBeacons ∧
    (m.expireClaimed round).candidate = m.candidate := by
  simp [Membership.expireClaimed]

@[simp] theorem Membership.releaseSilent_frame (round : Round) (m : Membership) (k : Slot) :
    (Membership.releaseSilent round m k).station = m.station ∧
    (Membership.releaseSilent round m k).peers = m.peers ∧
    (Membership.releaseSilent round m k).lfsr = m.lfsr ∧
    (Membership.releaseSilent round m k).surveyEntry = m.surveyEntry ∧
    (Membership.releaseSilent round m k).surveyEnd = m.surveyEnd ∧
    (Membership.releaseSilent round m k).target = m.target ∧
    (Membership.releaseSilent round m k).claim = m.claim ∧
    (Membership.releaseSilent round m k).tries = m.tries ∧
    (Membership.releaseSilent round m k).ownSlot = m.ownSlot ∧
    (Membership.releaseSilent round m k).claimRound = m.claimRound ∧
    (Membership.releaseSilent round m k).cleanRounds = m.cleanRounds ∧
    (Membership.releaseSilent round m k).strikeNow = m.strikeNow ∧
    (Membership.releaseSilent round m k).strikeBefore = m.strikeBefore ∧
    (Membership.releaseSilent round m k).ownOutcome = m.ownOutcome ∧
    (Membership.releaseSilent round m k).backoff = m.backoff ∧
    (Membership.releaseSilent round m k).leavingBeacons = m.leavingBeacons ∧
    (Membership.releaseSilent round m k).candidate = m.candidate := by
  unfold Membership.releaseSilent
  (repeat' split) <;> simp

@[simp] theorem Membership.expireClaims_frame (round : Round) (m : Membership) :
    (m.expireClaims round).station = m.station ∧ (m.expireClaims round).peers = m.peers ∧
    (m.expireClaims round).lfsr = m.lfsr ∧ (m.expireClaims round).surveyEntry = m.surveyEntry ∧
    (m.expireClaims round).surveyEnd = m.surveyEnd ∧ (m.expireClaims round).target = m.target ∧
    (m.expireClaims round).claim = m.claim ∧ (m.expireClaims round).tries = m.tries ∧
    (m.expireClaims round).ownSlot = m.ownSlot ∧ (m.expireClaims round).claimRound = m.claimRound ∧
    (m.expireClaims round).cleanRounds = m.cleanRounds ∧ (m.expireClaims round).strikeNow = m.strikeNow ∧
    (m.expireClaims round).strikeBefore = m.strikeBefore ∧
    (m.expireClaims round).ownOutcome = m.ownOutcome ∧ (m.expireClaims round).backoff = m.backoff ∧
    (m.expireClaims round).leavingBeacons = m.leavingBeacons ∧
    (m.expireClaims round).candidate = m.candidate := by
  unfold Membership.expireClaims
  simp [foldl_member Membership.station, foldl_member Membership.peers, foldl_member Membership.lfsr, foldl_member Membership.surveyEntry, foldl_member Membership.surveyEnd, foldl_member Membership.target, foldl_member Membership.claim, foldl_member Membership.tries, foldl_member Membership.ownSlot, foldl_member Membership.claimRound, foldl_member Membership.cleanRounds, foldl_member Membership.strikeNow, foldl_member Membership.strikeBefore, foldl_member Membership.ownOutcome, foldl_member Membership.backoff, foldl_member Membership.leavingBeacons, foldl_member Membership.candidate]

@[simp] theorem Membership.noteBeacon_frame (k : Slot) (sender : Byte) (m : Membership) :
    (m.noteBeacon k sender).station = m.station ∧ (m.noteBeacon k sender).peers = m.peers ∧
    (m.noteBeacon k sender).lfsr = m.lfsr ∧ (m.noteBeacon k sender).surveyEntry = m.surveyEntry ∧
    (m.noteBeacon k sender).surveyEnd = m.surveyEnd ∧ (m.noteBeacon k sender).target = m.target ∧
    (m.noteBeacon k sender).claim = m.claim ∧ (m.noteBeacon k sender).tries = m.tries ∧
    (m.noteBeacon k sender).ownSlot = m.ownSlot ∧ (m.noteBeacon k sender).claimRound = m.claimRound ∧
    (m.noteBeacon k sender).cleanRounds = m.cleanRounds ∧ (m.noteBeacon k sender).strikeNow = m.strikeNow ∧
    (m.noteBeacon k sender).strikeBefore = m.strikeBefore ∧
    (m.noteBeacon k sender).ownOutcome = m.ownOutcome ∧ (m.noteBeacon k sender).backoff = m.backoff ∧
    (m.noteBeacon k sender).leavingBeacons = m.leavingBeacons ∧
    (m.noteBeacon k sender).candidate = m.candidate := by
  unfold Membership.noteBeacon
  split <;> simp

@[simp] theorem Membership.noteClaim_frame (t : Slot) (sender : Byte) (round : Round) (m : Membership) :
    (m.noteClaim t sender round).station = m.station ∧ (m.noteClaim t sender round).peers = m.peers ∧
    (m.noteClaim t sender round).lfsr = m.lfsr ∧ (m.noteClaim t sender round).surveyEntry = m.surveyEntry ∧
    (m.noteClaim t sender round).surveyEnd = m.surveyEnd ∧ (m.noteClaim t sender round).target = m.target ∧
    (m.noteClaim t sender round).claim = m.claim ∧ (m.noteClaim t sender round).tries = m.tries ∧
    (m.noteClaim t sender round).ownSlot = m.ownSlot ∧
    (m.noteClaim t sender round).claimRound = m.claimRound ∧
    (m.noteClaim t sender round).cleanRounds = m.cleanRounds ∧
    (m.noteClaim t sender round).strikeNow = m.strikeNow ∧
    (m.noteClaim t sender round).strikeBefore = m.strikeBefore ∧
    (m.noteClaim t sender round).ownOutcome = m.ownOutcome ∧
    (m.noteClaim t sender round).backoff = m.backoff ∧
    (m.noteClaim t sender round).leavingBeacons = m.leavingBeacons ∧
    (m.noteClaim t sender round).candidate = m.candidate := by
  simp [Membership.noteClaim]

@[simp] theorem Membership.updPeer_frame (id : Byte) (f : PeerEntry → PeerEntry) (m : Membership) :
    (m.updPeer id f).station = m.station ∧ (m.updPeer id f).slots = m.slots ∧
    (m.updPeer id f).lfsr = m.lfsr ∧ (m.updPeer id f).surveyEntry = m.surveyEntry ∧
    (m.updPeer id f).surveyEnd = m.surveyEnd ∧ (m.updPeer id f).target = m.target ∧
    (m.updPeer id f).claim = m.claim ∧ (m.updPeer id f).tries = m.tries ∧
    (m.updPeer id f).ownSlot = m.ownSlot ∧ (m.updPeer id f).claimRound = m.claimRound ∧
    (m.updPeer id f).cleanRounds = m.cleanRounds ∧ (m.updPeer id f).strikeNow = m.strikeNow ∧
    (m.updPeer id f).strikeBefore = m.strikeBefore ∧ (m.updPeer id f).ownOutcome = m.ownOutcome ∧
    (m.updPeer id f).backoff = m.backoff ∧ (m.updPeer id f).leavingBeacons = m.leavingBeacons ∧
    (m.updPeer id f).candidate = m.candidate := by
  simp only [Membership.updPeer, and_self]

@[simp] theorem Membership.clearItems_frame (m : Membership) :
    (m.clearItems).station = m.station ∧ (m.clearItems).slots = m.slots ∧ (m.clearItems).peers = m.peers ∧
    (m.clearItems).lfsr = m.lfsr ∧ (m.clearItems).candidate = m.candidate := by
  simp only [Membership.clearItems, and_self]

@[simp] theorem Membership.markStrike_frame (now round : Round) (m : Membership) :
    (m.markStrike now round).station = m.station ∧ (m.markStrike now round).slots = m.slots ∧
    (m.markStrike now round).peers = m.peers ∧ (m.markStrike now round).lfsr = m.lfsr ∧
    (m.markStrike now round).surveyEntry = m.surveyEntry ∧
    (m.markStrike now round).surveyEnd = m.surveyEnd ∧ (m.markStrike now round).target = m.target ∧
    (m.markStrike now round).claim = m.claim ∧ (m.markStrike now round).tries = m.tries ∧
    (m.markStrike now round).ownSlot = m.ownSlot ∧ (m.markStrike now round).claimRound = m.claimRound ∧
    (m.markStrike now round).cleanRounds = m.cleanRounds ∧
    (m.markStrike now round).ownOutcome = m.ownOutcome ∧ (m.markStrike now round).backoff = m.backoff ∧
    (m.markStrike now round).leavingBeacons = m.leavingBeacons ∧
    (m.markStrike now round).candidate = m.candidate := by
  unfold Membership.markStrike
  split <;> simp only [and_self]

@[simp] theorem Membership.wrapRecords_frame (m : Membership) :
    (m.wrapRecords).station = m.station ∧ (m.wrapRecords).slots = m.slots ∧
    (m.wrapRecords).peers = m.peers ∧ (m.wrapRecords).lfsr = m.lfsr ∧
    (m.wrapRecords).surveyEntry = m.surveyEntry ∧ (m.wrapRecords).surveyEnd = m.surveyEnd ∧
    (m.wrapRecords).target = m.target ∧ (m.wrapRecords).claim = m.claim ∧ (m.wrapRecords).tries = m.tries ∧
    (m.wrapRecords).ownSlot = m.ownSlot ∧ (m.wrapRecords).claimRound = m.claimRound ∧
    (m.wrapRecords).cleanRounds = m.cleanRounds ∧ (m.wrapRecords).backoff = m.backoff ∧
    (m.wrapRecords).leavingBeacons = m.leavingBeacons ∧ (m.wrapRecords).candidate = m.candidate := by
  unfold Membership.wrapRecords
  split <;> simp only [and_self]

@[simp] theorem State.losePeer_member (p : PeerEntry) (reason : LostReason) (s : State) :
    (s.losePeer p reason).member.station = s.member.station ∧
    (s.losePeer p reason).member.lfsr = s.member.lfsr ∧
    (s.losePeer p reason).member.surveyEntry = s.member.surveyEntry ∧
    (s.losePeer p reason).member.surveyEnd = s.member.surveyEnd ∧
    (s.losePeer p reason).member.target = s.member.target ∧
    (s.losePeer p reason).member.claim = s.member.claim ∧
    (s.losePeer p reason).member.tries = s.member.tries ∧
    (s.losePeer p reason).member.ownSlot = s.member.ownSlot ∧
    (s.losePeer p reason).member.claimRound = s.member.claimRound ∧
    (s.losePeer p reason).member.cleanRounds = s.member.cleanRounds ∧
    (s.losePeer p reason).member.strikeNow = s.member.strikeNow ∧
    (s.losePeer p reason).member.strikeBefore = s.member.strikeBefore ∧
    (s.losePeer p reason).member.ownOutcome = s.member.ownOutcome ∧
    (s.losePeer p reason).member.backoff = s.member.backoff ∧
    (s.losePeer p reason).member.leavingBeacons = s.member.leavingBeacons ∧
    (s.losePeer p reason).member.candidate = s.member.candidate := by
  unfold State.losePeer
  dsimp only
  (repeat' split) <;> simp

@[simp] theorem State.reportSilent_member (k : Slot) (round : Round) (s : State) :
    (s.reportSilent k round).member.station = s.member.station ∧
    (s.reportSilent k round).member.lfsr = s.member.lfsr ∧
    (s.reportSilent k round).member.surveyEntry = s.member.surveyEntry ∧
    (s.reportSilent k round).member.surveyEnd = s.member.surveyEnd ∧
    (s.reportSilent k round).member.target = s.member.target ∧
    (s.reportSilent k round).member.claim = s.member.claim ∧
    (s.reportSilent k round).member.tries = s.member.tries ∧
    (s.reportSilent k round).member.ownSlot = s.member.ownSlot ∧
    (s.reportSilent k round).member.claimRound = s.member.claimRound ∧
    (s.reportSilent k round).member.cleanRounds = s.member.cleanRounds ∧
    (s.reportSilent k round).member.strikeNow = s.member.strikeNow ∧
    (s.reportSilent k round).member.strikeBefore = s.member.strikeBefore ∧
    (s.reportSilent k round).member.ownOutcome = s.member.ownOutcome ∧
    (s.reportSilent k round).member.backoff = s.member.backoff ∧
    (s.reportSilent k round).member.leavingBeacons = s.member.leavingBeacons ∧
    (s.reportSilent k round).member.candidate = s.member.candidate := by
  unfold State.reportSilent
  simp [foldl_field (fun s : State => s.member.station), foldl_field (fun s : State => s.member.lfsr), foldl_field (fun s : State => s.member.surveyEntry), foldl_field (fun s : State => s.member.surveyEnd), foldl_field (fun s : State => s.member.target), foldl_field (fun s : State => s.member.claim), foldl_field (fun s : State => s.member.tries), foldl_field (fun s : State => s.member.ownSlot), foldl_field (fun s : State => s.member.claimRound), foldl_field (fun s : State => s.member.cleanRounds), foldl_field (fun s : State => s.member.strikeNow), foldl_field (fun s : State => s.member.strikeBefore), foldl_field (fun s : State => s.member.ownOutcome), foldl_field (fun s : State => s.member.backoff), foldl_field (fun s : State => s.member.leavingBeacons), foldl_field (fun s : State => s.member.candidate)]

@[simp] theorem State.closeWindow_member (s : State) :
    (s.closeWindow).member.station = s.member.station ∧ (s.closeWindow).member.lfsr = s.member.lfsr ∧
    (s.closeWindow).member.surveyEntry = s.member.surveyEntry ∧
    (s.closeWindow).member.surveyEnd = s.member.surveyEnd ∧
    (s.closeWindow).member.target = s.member.target ∧ (s.closeWindow).member.claim = s.member.claim ∧
    (s.closeWindow).member.tries = s.member.tries ∧ (s.closeWindow).member.ownSlot = s.member.ownSlot ∧
    (s.closeWindow).member.claimRound = s.member.claimRound ∧
    (s.closeWindow).member.cleanRounds = s.member.cleanRounds ∧
    (s.closeWindow).member.strikeNow = s.member.strikeNow ∧
    (s.closeWindow).member.strikeBefore = s.member.strikeBefore ∧
    (s.closeWindow).member.ownOutcome = s.member.ownOutcome ∧
    (s.closeWindow).member.backoff = s.member.backoff ∧
    (s.closeWindow).member.leavingBeacons = s.member.leavingBeacons ∧
    (s.closeWindow).member.candidate = s.member.candidate := by
  unfold State.closeWindow
  dsimp only
  (repeat' split) <;> simp

@[simp] theorem State.countMissed_member (ended : Round) (s : State) :
    (s.countMissed ended).member.station = s.member.station ∧
    (s.countMissed ended).member.lfsr = s.member.lfsr ∧
    (s.countMissed ended).member.surveyEntry = s.member.surveyEntry ∧
    (s.countMissed ended).member.surveyEnd = s.member.surveyEnd ∧
    (s.countMissed ended).member.target = s.member.target ∧
    (s.countMissed ended).member.claim = s.member.claim ∧
    (s.countMissed ended).member.tries = s.member.tries ∧
    (s.countMissed ended).member.ownSlot = s.member.ownSlot ∧
    (s.countMissed ended).member.claimRound = s.member.claimRound ∧
    (s.countMissed ended).member.cleanRounds = s.member.cleanRounds ∧
    (s.countMissed ended).member.strikeNow = s.member.strikeNow ∧
    (s.countMissed ended).member.strikeBefore = s.member.strikeBefore ∧
    (s.countMissed ended).member.ownOutcome = s.member.ownOutcome ∧
    (s.countMissed ended).member.backoff = s.member.backoff ∧
    (s.countMissed ended).member.leavingBeacons = s.member.leavingBeacons ∧
    (s.countMissed ended).member.candidate = s.member.candidate := by
  unfold State.countMissed
  simp [foldl_field (fun s : State => s.member.station), foldl_field (fun s : State => s.member.lfsr), foldl_field (fun s : State => s.member.surveyEntry), foldl_field (fun s : State => s.member.surveyEnd), foldl_field (fun s : State => s.member.target), foldl_field (fun s : State => s.member.claim), foldl_field (fun s : State => s.member.tries), foldl_field (fun s : State => s.member.ownSlot), foldl_field (fun s : State => s.member.claimRound), foldl_field (fun s : State => s.member.cleanRounds), foldl_field (fun s : State => s.member.strikeNow), foldl_field (fun s : State => s.member.strikeBefore), foldl_field (fun s : State => s.member.ownOutcome), foldl_field (fun s : State => s.member.backoff), foldl_field (fun s : State => s.member.leavingBeacons), foldl_field (fun s : State => s.member.candidate)]

@[simp] theorem State.expireClaimants_member (round : Round) (s : State) :
    (s.expireClaimants round).member.station = s.member.station ∧
    (s.expireClaimants round).member.lfsr = s.member.lfsr ∧
    (s.expireClaimants round).member.surveyEntry = s.member.surveyEntry ∧
    (s.expireClaimants round).member.surveyEnd = s.member.surveyEnd ∧
    (s.expireClaimants round).member.target = s.member.target ∧
    (s.expireClaimants round).member.claim = s.member.claim ∧
    (s.expireClaimants round).member.tries = s.member.tries ∧
    (s.expireClaimants round).member.ownSlot = s.member.ownSlot ∧
    (s.expireClaimants round).member.claimRound = s.member.claimRound ∧
    (s.expireClaimants round).member.cleanRounds = s.member.cleanRounds ∧
    (s.expireClaimants round).member.strikeNow = s.member.strikeNow ∧
    (s.expireClaimants round).member.strikeBefore = s.member.strikeBefore ∧
    (s.expireClaimants round).member.ownOutcome = s.member.ownOutcome ∧
    (s.expireClaimants round).member.backoff = s.member.backoff ∧
    (s.expireClaimants round).member.leavingBeacons = s.member.leavingBeacons ∧
    (s.expireClaimants round).member.candidate = s.member.candidate := by
  unfold State.expireClaimants
  simp [foldl_field (fun s : State => s.member.station), foldl_field (fun s : State => s.member.lfsr), foldl_field (fun s : State => s.member.surveyEntry), foldl_field (fun s : State => s.member.surveyEnd), foldl_field (fun s : State => s.member.target), foldl_field (fun s : State => s.member.claim), foldl_field (fun s : State => s.member.tries), foldl_field (fun s : State => s.member.ownSlot), foldl_field (fun s : State => s.member.claimRound), foldl_field (fun s : State => s.member.cleanRounds), foldl_field (fun s : State => s.member.strikeNow), foldl_field (fun s : State => s.member.strikeBefore), foldl_field (fun s : State => s.member.ownOutcome), foldl_field (fun s : State => s.member.backoff), foldl_field (fun s : State => s.member.leavingBeacons), foldl_field (fun s : State => s.member.candidate)]

@[simp] theorem State.wrapTables_member (round : Round) (s : State) :
    (s.wrapTables round).member.station = s.member.station ∧
    (s.wrapTables round).member.lfsr = s.member.lfsr ∧
    (s.wrapTables round).member.surveyEntry = s.member.surveyEntry ∧
    (s.wrapTables round).member.surveyEnd = s.member.surveyEnd ∧
    (s.wrapTables round).member.target = s.member.target ∧
    (s.wrapTables round).member.claim = s.member.claim ∧
    (s.wrapTables round).member.tries = s.member.tries ∧
    (s.wrapTables round).member.ownSlot = s.member.ownSlot ∧
    (s.wrapTables round).member.claimRound = s.member.claimRound ∧
    (s.wrapTables round).member.cleanRounds = s.member.cleanRounds ∧
    (s.wrapTables round).member.strikeNow = s.member.strikeNow ∧
    (s.wrapTables round).member.strikeBefore = s.member.strikeBefore ∧
    (s.wrapTables round).member.ownOutcome = s.member.ownOutcome ∧
    (s.wrapTables round).member.backoff = s.member.backoff ∧
    (s.wrapTables round).member.leavingBeacons = s.member.leavingBeacons ∧
    (s.wrapTables round).member.candidate = s.member.candidate := by
  simp [State.wrapTables]

@[simp] theorem State.addPeer_member (e : PeerEntry) (s : State) :
    (s.addPeer e).member.station = s.member.station ∧ (s.addPeer e).member.slots = s.member.slots ∧
    (s.addPeer e).member.lfsr = s.member.lfsr ∧ (s.addPeer e).member.surveyEntry = s.member.surveyEntry ∧
    (s.addPeer e).member.surveyEnd = s.member.surveyEnd ∧ (s.addPeer e).member.target = s.member.target ∧
    (s.addPeer e).member.claim = s.member.claim ∧ (s.addPeer e).member.tries = s.member.tries ∧
    (s.addPeer e).member.ownSlot = s.member.ownSlot ∧
    (s.addPeer e).member.claimRound = s.member.claimRound ∧
    (s.addPeer e).member.cleanRounds = s.member.cleanRounds ∧
    (s.addPeer e).member.strikeNow = s.member.strikeNow ∧
    (s.addPeer e).member.strikeBefore = s.member.strikeBefore ∧
    (s.addPeer e).member.ownOutcome = s.member.ownOutcome ∧
    (s.addPeer e).member.backoff = s.member.backoff ∧
    (s.addPeer e).member.leavingBeacons = s.member.leavingBeacons ∧
    (s.addPeer e).member.candidate = s.member.candidate := by
  unfold State.addPeer
  (repeat' split) <;> simp

@[simp] theorem State.peerBeacon_member (sender : Byte) (flag : BeaconFlag) (round : Round) (k : Slot) (report : PeerReport) (s : State) :
    (s.peerBeacon sender flag round k report).member.station = s.member.station ∧
    (s.peerBeacon sender flag round k report).member.lfsr = s.member.lfsr ∧
    (s.peerBeacon sender flag round k report).member.surveyEntry = s.member.surveyEntry ∧
    (s.peerBeacon sender flag round k report).member.surveyEnd = s.member.surveyEnd ∧
    (s.peerBeacon sender flag round k report).member.target = s.member.target ∧
    (s.peerBeacon sender flag round k report).member.claim = s.member.claim ∧
    (s.peerBeacon sender flag round k report).member.tries = s.member.tries ∧
    (s.peerBeacon sender flag round k report).member.ownSlot = s.member.ownSlot ∧
    (s.peerBeacon sender flag round k report).member.claimRound = s.member.claimRound ∧
    (s.peerBeacon sender flag round k report).member.cleanRounds = s.member.cleanRounds ∧
    (s.peerBeacon sender flag round k report).member.strikeNow = s.member.strikeNow ∧
    (s.peerBeacon sender flag round k report).member.strikeBefore = s.member.strikeBefore ∧
    (s.peerBeacon sender flag round k report).member.ownOutcome = s.member.ownOutcome ∧
    (s.peerBeacon sender flag round k report).member.backoff = s.member.backoff ∧
    (s.peerBeacon sender flag round k report).member.leavingBeacons = s.member.leavingBeacons ∧
    (s.peerBeacon sender flag round k report).member.candidate = s.member.candidate := by
  unfold State.peerBeacon
  dsimp only
  (repeat' split) <;> simp

@[simp] theorem State.peerClaim_member (sender : Byte) (round : Round) (s : State) :
    (s.peerClaim sender round).member.station = s.member.station ∧
    (s.peerClaim sender round).member.lfsr = s.member.lfsr ∧
    (s.peerClaim sender round).member.surveyEntry = s.member.surveyEntry ∧
    (s.peerClaim sender round).member.surveyEnd = s.member.surveyEnd ∧
    (s.peerClaim sender round).member.target = s.member.target ∧
    (s.peerClaim sender round).member.claim = s.member.claim ∧
    (s.peerClaim sender round).member.tries = s.member.tries ∧
    (s.peerClaim sender round).member.ownSlot = s.member.ownSlot ∧
    (s.peerClaim sender round).member.claimRound = s.member.claimRound ∧
    (s.peerClaim sender round).member.cleanRounds = s.member.cleanRounds ∧
    (s.peerClaim sender round).member.strikeNow = s.member.strikeNow ∧
    (s.peerClaim sender round).member.strikeBefore = s.member.strikeBefore ∧
    (s.peerClaim sender round).member.ownOutcome = s.member.ownOutcome ∧
    (s.peerClaim sender round).member.backoff = s.member.backoff ∧
    (s.peerClaim sender round).member.leavingBeacons = s.member.leavingBeacons ∧
    (s.peerClaim sender round).member.candidate = s.member.candidate := by
  unfold State.peerClaim
  dsimp only
  (repeat' split) <;> simp

@[simp] theorem State.resetTables_member (s : State) :
    (s.resetTables).member.station = s.member.station ∧ (s.resetTables).member.lfsr = s.member.lfsr ∧
    (s.resetTables).member.surveyEntry = s.member.surveyEntry ∧
    (s.resetTables).member.surveyEnd = s.member.surveyEnd ∧
    (s.resetTables).member.target = s.member.target ∧ (s.resetTables).member.claim = s.member.claim ∧
    (s.resetTables).member.tries = s.member.tries ∧ (s.resetTables).member.ownSlot = s.member.ownSlot ∧
    (s.resetTables).member.claimRound = s.member.claimRound ∧
    (s.resetTables).member.cleanRounds = s.member.cleanRounds ∧
    (s.resetTables).member.strikeNow = s.member.strikeNow ∧
    (s.resetTables).member.strikeBefore = s.member.strikeBefore ∧
    (s.resetTables).member.ownOutcome = s.member.ownOutcome ∧
    (s.resetTables).member.backoff = s.member.backoff ∧
    (s.resetTables).member.leavingBeacons = s.member.leavingBeacons ∧
    (s.resetTables).member.candidate = s.member.candidate := by
  simp [State.resetTables]

@[simp] theorem State.drawPosition_member (s : State) :
    (s.drawPosition).member.station = s.member.station ∧ (s.drawPosition).member.slots = s.member.slots ∧
    (s.drawPosition).member.peers = s.member.peers ∧
    (s.drawPosition).member.surveyEntry = s.member.surveyEntry ∧
    (s.drawPosition).member.surveyEnd = s.member.surveyEnd ∧
    (s.drawPosition).member.target = s.member.target ∧ (s.drawPosition).member.tries = s.member.tries ∧
    (s.drawPosition).member.ownSlot = s.member.ownSlot ∧
    (s.drawPosition).member.claimRound = s.member.claimRound ∧
    (s.drawPosition).member.cleanRounds = s.member.cleanRounds ∧
    (s.drawPosition).member.strikeNow = s.member.strikeNow ∧
    (s.drawPosition).member.strikeBefore = s.member.strikeBefore ∧
    (s.drawPosition).member.ownOutcome = s.member.ownOutcome ∧
    (s.drawPosition).member.backoff = s.member.backoff ∧
    (s.drawPosition).member.leavingBeacons = s.member.leavingBeacons ∧
    (s.drawPosition).member.candidate = s.member.candidate := by
  unfold State.drawPosition
  dsimp only
  (repeat' split) <;> simp

@[simp] theorem State.noteOwnOutcome_member (k : Slot) (o : TxOutcome) (s : State) :
    (s.noteOwnOutcome k o).member.station = s.member.station ∧
    (s.noteOwnOutcome k o).member.slots = s.member.slots ∧
    (s.noteOwnOutcome k o).member.peers = s.member.peers ∧
    (s.noteOwnOutcome k o).member.lfsr = s.member.lfsr ∧
    (s.noteOwnOutcome k o).member.surveyEntry = s.member.surveyEntry ∧
    (s.noteOwnOutcome k o).member.surveyEnd = s.member.surveyEnd ∧
    (s.noteOwnOutcome k o).member.target = s.member.target ∧
    (s.noteOwnOutcome k o).member.claim = s.member.claim ∧
    (s.noteOwnOutcome k o).member.tries = s.member.tries ∧
    (s.noteOwnOutcome k o).member.ownSlot = s.member.ownSlot ∧
    (s.noteOwnOutcome k o).member.claimRound = s.member.claimRound ∧
    (s.noteOwnOutcome k o).member.cleanRounds = s.member.cleanRounds ∧
    (s.noteOwnOutcome k o).member.strikeNow = s.member.strikeNow ∧
    (s.noteOwnOutcome k o).member.strikeBefore = s.member.strikeBefore ∧
    (s.noteOwnOutcome k o).member.backoff = s.member.backoff ∧
    (s.noteOwnOutcome k o).member.leavingBeacons = s.member.leavingBeacons ∧
    (s.noteOwnOutcome k o).member.candidate = s.member.candidate := by
  unfold State.noteOwnOutcome
  (repeat' split) <;> simp

@[simp] theorem State.foreignSettled_member (c : Candidate) (s : State) :
    (s.foreignSettled c).member.station = s.member.station ∧
    (s.foreignSettled c).member.slots = s.member.slots ∧
    (s.foreignSettled c).member.peers = s.member.peers ∧ (s.foreignSettled c).member.lfsr = s.member.lfsr ∧
    (s.foreignSettled c).member.surveyEntry = s.member.surveyEntry ∧
    (s.foreignSettled c).member.surveyEnd = s.member.surveyEnd ∧
    (s.foreignSettled c).member.target = s.member.target ∧
    (s.foreignSettled c).member.claim = s.member.claim ∧
    (s.foreignSettled c).member.tries = s.member.tries ∧
    (s.foreignSettled c).member.ownSlot = s.member.ownSlot ∧
    (s.foreignSettled c).member.claimRound = s.member.claimRound ∧
    (s.foreignSettled c).member.cleanRounds = s.member.cleanRounds ∧
    (s.foreignSettled c).member.strikeNow = s.member.strikeNow ∧
    (s.foreignSettled c).member.strikeBefore = s.member.strikeBefore ∧
    (s.foreignSettled c).member.ownOutcome = s.member.ownOutcome ∧
    (s.foreignSettled c).member.backoff = s.member.backoff ∧
    (s.foreignSettled c).member.leavingBeacons = s.member.leavingBeacons := by
  unfold State.foreignSettled
  (repeat' split) <;> simp

@[simp] theorem State.deferClaim_member (s : State) :
    (s.deferClaim).member.station = s.member.station ∧ (s.deferClaim).member.slots = s.member.slots ∧
    (s.deferClaim).member.peers = s.member.peers ∧ (s.deferClaim).member.lfsr = s.member.lfsr ∧
    (s.deferClaim).member.surveyEntry = s.member.surveyEntry ∧
    (s.deferClaim).member.surveyEnd = s.member.surveyEnd ∧ (s.deferClaim).member.target = s.member.target ∧
    (s.deferClaim).member.tries = s.member.tries ∧ (s.deferClaim).member.ownSlot = s.member.ownSlot ∧
    (s.deferClaim).member.claimRound = s.member.claimRound ∧
    (s.deferClaim).member.cleanRounds = s.member.cleanRounds ∧
    (s.deferClaim).member.strikeNow = s.member.strikeNow ∧
    (s.deferClaim).member.strikeBefore = s.member.strikeBefore ∧
    (s.deferClaim).member.ownOutcome = s.member.ownOutcome ∧
    (s.deferClaim).member.backoff = s.member.backoff ∧
    (s.deferClaim).member.leavingBeacons = s.member.leavingBeacons ∧
    (s.deferClaim).member.candidate = s.member.candidate := by
  simp [State.deferClaim]

@[simp] theorem State.startTransmission_member (s : State) :
    (s.startTransmission).member.station = s.member.station ∧
    (s.startTransmission).member.slots = s.member.slots ∧
    (s.startTransmission).member.peers = s.member.peers ∧
    (s.startTransmission).member.lfsr = s.member.lfsr ∧
    (s.startTransmission).member.surveyEntry = s.member.surveyEntry ∧
    (s.startTransmission).member.surveyEnd = s.member.surveyEnd ∧
    (s.startTransmission).member.target = s.member.target ∧
    (s.startTransmission).member.tries = s.member.tries ∧
    (s.startTransmission).member.ownSlot = s.member.ownSlot ∧
    (s.startTransmission).member.claimRound = s.member.claimRound ∧
    (s.startTransmission).member.cleanRounds = s.member.cleanRounds ∧
    (s.startTransmission).member.strikeNow = s.member.strikeNow ∧
    (s.startTransmission).member.strikeBefore = s.member.strikeBefore ∧
    (s.startTransmission).member.ownOutcome = s.member.ownOutcome ∧
    (s.startTransmission).member.backoff = s.member.backoff ∧
    (s.startTransmission).member.leavingBeacons = s.member.leavingBeacons ∧
    (s.startTransmission).member.candidate = s.member.candidate := by
  unfold State.startTransmission
  (repeat' split) <;> simp

/-- An answer changes the port only. -/
@[simp] theorem answer_frame (code : Byte) (rest : List TakenRecord) (d : State × ResultCode × Payload) :
    (answer code rest d).timer = d.1.timer ∧ (answer code rest d).line = d.1.line ∧
    (answer code rest d).frame = d.1.frame ∧ (answer code rest d).member = d.1.member ∧
    (answer code rest d).sync = d.1.sync ∧ (answer code rest d).cues = d.1.cues ∧
    (answer code rest d).firing = d.1.firing ∧ (answer code rest d).power = d.1.power ∧
    (answer code rest d).port.config = d.1.port.config ∧ (answer code rest d).port.locked = d.1.port.locked ∧
    (answer code rest d).port.taken = rest ∧ (answer code rest d).port.lost = false ∧
    (answer code rest d).port.events = d.1.port.events ∧ (answer code rest d).port.selected = d.1.port.selected ∧
    (answer code rest d).port.fetching = d.1.port.fetching ∧
    (answer code rest d).port.sdo = d.1.port.sdo ∧ (answer code rest d).resetting = d.1.resetting ∧
    (answer code rest d).freeCount = d.1.freeCount ∧ (answer code rest d).pending = d.1.pending := by
  simp [answer, HostPort.respond]

/-- A FETCH empties the response buffer and touches no other record. -/
@[simp] theorem HostPort.fetch_frame (p : HostPort) (clocked : Nat) (released : Bool) :
    (p.fetch clocked released).config = p.config ∧ (p.fetch clocked released).locked = p.locked ∧
    (p.fetch clocked released).events = p.events ∧ (p.fetch clocked released).taken = p.taken ∧
    (p.fetch clocked released).lost = p.lost ∧ (p.fetch clocked released).response = none ∧
    (p.fetch clocked released).selected = (!released && p.selected) := by
  unfold HostPort.fetch HostPort.endFetch
  cases released <;> simp

/-- A released transaction touches neither configuration nor events. -/
@[simp] theorem HostPort.release_frame (p : HostPort) (sdi : List Bool) :
    (p.release sdi).config = p.config ∧ (p.release sdi).locked = p.locked ∧
    (p.release sdi).events = p.events ∧ (p.release sdi).selected = false ∧
    (p.release sdi).fetching = none := by
  unfold HostPort.release HostPort.endFetch HostPort.fetch HostPort.endFetch HostPort.take
  (repeat' split) <;> simp_all

end Sys2Proof.Machine
end

