-- ==== Sys2Proof/Laws/Ops.lean ====
section
/-! SUPPORT. What the shared operations do, one lemma for each thing said. -/

namespace Sys2Proof.Machine

/-! ## Loops -/

/-- What one turn of a fold keeps true, the fold keeps true. -/
theorem foldl_keeps {α β : Type} {P : β → Prop} {f : β → α → β} (h : ∀ b x, P b → P (f b x))
    (l : List α) {b : β} (hb : P b) : P (l.foldl f b) := by
  induction l generalizing b with
  | nil => exact hb
  | cons x xs ih => exact ih (h b x hb)

/-- What one turn of an iteration keeps true, the iteration keeps true. -/
theorem iterate_keeps {β : Type} {P : β → Prop} {f : β → β} (h : ∀ b, P b → P (f b))
    (n : Nat) {b : β} (hb : P b) : P (f^[n] b) := by
  induction n generalizing b with
  | zero => exact hb
  | succ n ih => exact ih (h b hb)

/-! ## Lengths and instants -/

theorem roundLength_ge (code : Fin 4) : 16384 ≤ roundLength code := by
  revert code; decide

theorem roundLength_le (code : Fin 4) : roundLength code ≤ 131072 := by
  revert code; decide

theorem slotLength_mul (code : Fin 4) : 32 * slotLength code = roundLength code := by
  revert code; decide

theorem slotLength_ge (code : Fin 4) : 512 ≤ slotLength code := by
  revert code; decide

theorem instantAdd_phase_lt {L : Nat} (hL : 0 < L) (a : Instant) (n : Int) :
    (instantAdd L a n).phase < L := by
  unfold instantAdd
  have h1 : (0 : Int) < L := by omega
  have := Int.emod_lt_of_pos (a.phase + n) h1
  have := Int.emod_nonneg (a.phase + n) (by omega : (L : Int) ≠ 0)
  dsimp only
  omega

theorem correctionOf_bounds (offsets : List Int) : -8 ≤ correctionOf offsets ∧ correctionOf offsets ≤ 8 := by
  unfold correctionOf; dsimp only; omega

/-! ## Events -/

theorem queueAll_eq (ks : List EventKind) (s : State) :
    s.queueAll ks = { s with port := { s.port with
      events := (ks.map fun k => ⟨k, s.timer.clock⟩).foldl appendEvent s.port.events } } := by
  unfold State.queueAll
  induction ks generalizing s with
  | nil => rfl
  | cons k ks ih =>
    rw [List.foldl_cons, ih]
    rfl

/-! ## Firing reports (R120) -/

theorem recordReport_reports (s : State) : s.recordReport.firing.reports = s.firing.reports.tail := by
  unfold State.recordReport
  split
  · simp [*]
  · dsimp only
    split <;> simp [*]

theorem recordReport_lines (s : State) : s.recordReport.firing.lines = s.firing.lines := by
  unfold State.recordReport
  split
  · rfl
  · dsimp only
    split <;> simp

theorem recordReport_nextSeq (s : State) : s.recordReport.cues.nextSeq = s.cues.nextSeq := by
  unfold State.recordReport
  split
  · rfl
  · dsimp only
    split <;> simp

theorem iterate_recordReport_reports (n : Nat) (s : State) :
    (State.recordReport^[n] s).firing.reports = s.firing.reports.drop n := by
  induction n generalizing s with
  | zero => rfl
  | succ n ih =>
    show (State.recordReport^[n] s.recordReport).firing.reports = _
    rw [ih, recordReport_reports, List.drop_tail]

/-- No report is held after the held reports have been recorded. -/
@[simp] theorem recordReports_reports (s : State) : s.recordReports.firing.reports = [] := by
  unfold State.recordReports
  rw [iterate_recordReport_reports]
  simp

@[simp] theorem recordReports_lines (s : State) : s.recordReports.firing.lines = s.firing.lines :=
  iterate_field (fun s => s.firing.lines) recordReport_lines _ s

@[simp] theorem recordReports_nextSeq (s : State) : s.recordReports.cues.nextSeq = s.cues.nextSeq :=
  iterate_field (fun s => s.cues.nextSeq) recordReport_nextSeq _ s

/-- With no report held there is nothing to record. -/
theorem recordReports_of_nil {s : State} (h : s.firing.reports = []) : s.recordReports = s := by
  unfold State.recordReports
  rw [h]
  rfl

theorem recordReports_recordReports (s : State) : s.recordReports.recordReports = s.recordReports :=
  recordReports_of_nil (recordReports_reports s)

/-- What recording every held report does, in one piece: the entries reported become RETIRED, CUE_FIRED is queued
for each FIRED report, in order, and nothing else changes. -/
theorem recordReports_eq (s : State) :
    s.recordReports = { s with
      firing := { s.firing with reports := [] }
      cues := { s.cues with entries := (s.firing.reports.foldl (fun entries r =>
        updateCue entries r.origin r.seq fun e => { e with state := .retired r.outcome.reason })
        s.cues.entries) }
      port := { s.port with events := (s.firing.reports.foldl (fun events r =>
        if r.outcome = .fired then
          appendEvent events ⟨.cueFired r.origin r.seq r.lateness, s.timer.clock⟩ else events)
        s.port.events) } } := by
  unfold State.recordReports
  generalize hr : s.firing.reports = reports
  induction reports generalizing s with
  | nil =>
    obtain ⟨_, _, _, _, _, _, firing, _, _, _, _, _⟩ := s
    obtain ⟨_, _⟩ := firing
    cases hr
    rfl
  | cons r rest ih =>
    show State.recordReport^[rest.length] s.recordReport = _
    have h : s.recordReport.firing.reports = rest := by rw [recordReport_reports, hr]; rfl
    rw [ih _ h]
    unfold State.recordReport
    rw [hr]
    dsimp only
    cases ho : r.outcome <;> simp [ho, State.queue, State.updPort, State.updCues, State.updFiring]

/-! ## What falls due (R139, R140) -/

theorem wakeFor_of_not_doze {s : State} (h : s.power.state ≠ .doze) (cause : WakeCause) :
    s.wakeFor cause = s := if_neg h

/-- While not in DOZE nothing wakes: dealing with an entry changes the firing unit only. -/
theorem dealWith_power {s : State} (h : s.power.state ≠ .doze) (e : CueEntry) (lateness : Nat) :
    (s.dealWith e lateness).power = s.power := by
  unfold State.dealWith
  dsimp only
  rw [wakeFor_of_not_doze (by exact h)]
  rfl

theorem foldl_dealWith_power {s : State} (h : s.power.state ≠ .doze) (l : List CueEntry) :
    (l.foldl (fun s x => s.dealWith x 0) s).power = s.power := by
  induction l generalizing s with
  | nil => rfl
  | cons x xs ih =>
    have hx := dealWith_power h x 0
    rw [List.foldl_cons, ih (by rw [hx]; exact h), hx]

/-- While not in DOZE the power controller has no part in what falls due. -/
theorem fallDue_power {s : State} (h : s.power.state ≠ .doze) : s.fallDue.power = s.power := by
  unfold State.fallDue
  (repeat' split)
  · rfl
  · rw [foldl_dealWith_power (by simpa using h)]; simp
  · rfl

@[simp] theorem settleCues_reports (s : State) : s.settleCues.firing.reports = [] := by
  unfold State.settleCues; simp

theorem settleCues_power {s : State} (h : s.power.state ≠ .doze) : s.settleCues.power = s.power := by
  unfold State.settleCues; simp [fallDue_power h]

@[simp] theorem settleCues_nextSeq (s : State) : s.settleCues.cues.nextSeq = s.cues.nextSeq := by
  unfold State.settleCues; simp

/-- What line, frame unit, membership controller and sync unit hold has no part in what falls due. -/
theorem dealWith_others (line : LineUnit) (frame : FrameUnit) (member : Membership) (sync : SyncUnit)
    (e : CueEntry) (lateness : Nat) (s : State) :
    State.dealWith e lateness { s with line := line, frame := frame, member := member, sync := sync } =
      { s.dealWith e lateness with line := line, frame := frame, member := member, sync := sync } := by
  unfold State.dealWith State.wakeFor
  dsimp only
  by_cases h : s.power.state = .doze <;> simp [h, State.updFiring, State.updPower, State.inGroup] 

theorem fallDue_others (line : LineUnit) (frame : FrameUnit) (member : Membership) (sync : SyncUnit) (s : State) :
    State.fallDue { s with line := line, frame := frame, member := member, sync := sync } =
      { s.fallDue with line := line, frame := frame, member := member, sync := sync } := by
  have fold : ∀ (l : List CueEntry) (s : State),
      l.foldl (fun s x => State.dealWith x 0 s)
        { s with line := line, frame := frame, member := member, sync := sync } =
      { l.foldl (fun s x => State.dealWith x 0 s) s with
        line := line, frame := frame, member := member, sync := sync } := by
    intro l
    induction l with
    | nil => intro s; rfl
    | cons x xs ih => intro s; rw [List.foldl_cons, List.foldl_cons, dealWith_others, ih]
  have hd' : State.dueNow { s with line := line, frame := frame, member := member, sync := sync } = s.dueNow := rfl
  unfold State.fallDue
  by_cases hr : s.Running
  · rw [if_pos hr, if_pos (show State.Running _ from hr), hd']
    cases s.dueNow with
    | nil => rfl
    | cons e rest => exact fold (e :: rest) s.endPulses
  · rw [if_neg hr, if_neg (show ¬ State.Running _ from hr)]

theorem settleCues_others (line : LineUnit) (frame : FrameUnit) (member : Membership) (sync : SyncUnit)
    (s : State) :
    State.settleCues { s with line := line, frame := frame, member := member, sync := sync } =
      { s.settleCues with line := line, frame := frame, member := member, sync := sync } := by
  unfold State.settleCues
  rw [fallDue_others, recordReports_eq, recordReports_eq]

/-! ## The oldest taken record (R162) -/

theorem oldestTaken_of {s : State} {r : TakenRecord} {rest : List TakenRecord} (ha : s.Awake)
    (h : s.port.taken = r :: rest) : s.oldestTaken = some (r, rest) := by
  unfold State.oldestTaken
  rw [if_pos ha, h]

/-! ## Handing and withdrawing frames (R25, R41) -/

theorem handFrame_of_idle {s : State} (h : s.line.tx = .idle) (frame : OutFrame) (handed : Handed) :
    s.handFrame frame handed =
      { s with
        line := { s.line with tx := .pending frame }, frame := { s.frame with sending := some handed } } := by
  unfold State.handFrame
  rw [h]
  rfl

theorem withdrawFrame_of_idle {s : State} (h : s.line.tx = .idle) (kind : FrameKind) :
    s.withdrawFrame kind = s := by
  unfold State.withdrawFrame
  rw [h]

/-! ## The slot table -/

theorem kind_setKind (m : Membership) (k j : Slot) (kind : SlotKind) :
    (m.setKind k kind).kind j = if j = k then kind else m.kind j := by
  unfold Membership.setKind Membership.kind
  by_cases h : j = k
  · subst h; simp
  · have hv : k.val ≠ j.val := fun e => h (Fin.ext e.symm)
    simp [h, Vector.getElem_set_ne, hv]

theorem kind_mapKinds (m : Membership) (f : Slot → SlotKind → SlotKind) (j : Slot) :
    (m.mapKinds f).kind j = f j (m.kind j) := by
  unfold Membership.mapKinds Membership.kind
  simp

@[simp] theorem kind_record (m : Membership) (k j : Slot) (o : SlotOutcome) (round : Round) :
    (m.record k o round).kind j = m.kind j := by
  unfold Membership.record Membership.kind SlotEntry.take
  by_cases h : j = k
  · subst h
    simp
    (repeat' split) <;> rfl
  · have hv : k.val ≠ j.val := fun e => h (Fin.ext e.symm)
    simp [Vector.getElem_set_ne, hv]

/-- The last outcome of a slot with its round. -/
abbrev Membership.outcomeOf (m : Membership) (k : Slot) : SlotOutcome × Round :=
  ((m.slots[k]).outcome, (m.slots[k]).outcomeRound)

@[simp] theorem outcomeOf_setKind (m : Membership) (k j : Slot) (kind : SlotKind) :
    (m.setKind k kind).outcomeOf j = m.outcomeOf j := by
  unfold Membership.outcomeOf Membership.setKind
  by_cases h : j = k
  · subst h; simp
  · have hv : k.val ≠ j.val := fun e => h (Fin.ext e.symm)
    simp [Vector.getElem_set_ne, hv]

@[simp] theorem outcomeOf_mapKinds (m : Membership) (f : Slot → SlotKind → SlotKind) (j : Slot) :
    (m.mapKinds f).outcomeOf j = m.outcomeOf j := by
  unfold Membership.outcomeOf Membership.mapKinds; simp

@[simp] theorem outcomeOf_release (m : Membership) (k j : Slot) (giver : Option Byte) :
    (m.release k giver).outcomeOf j = m.outcomeOf j := by
  unfold Membership.release; simp

@[simp] theorem outcomeOf_giveUp (m : Membership) (id : Byte) (kept : Option Slot) (j : Slot) :
    (m.giveUp id kept).outcomeOf j = m.outcomeOf j := by
  unfold Membership.giveUp; simp

/-- An heir is OCCUPIED by a peer that beacons in the slot, or there is none and it is VACANT (R58). -/
theorem heir_cases (m : Membership) (k : Slot) (giver : Option Byte) :
    (∃ p ∈ m.peers, p.beaconsIn k = true ∧ some p.id ≠ giver ∧ m.heir k giver = .occupied p.id) ∨
    m.heir k giver = .vacant := by
  unfold Membership.heir
  split
  · rename_i p h
    have hp := List.find?_some h
    simp only [Bool.and_eq_true, decide_eq_true_eq] at hp
    exact Or.inl ⟨p, List.mem_of_find?_eq_some h, hp.1, hp.2, rfl⟩
  · exact Or.inr rfl

/-- A station that gives up its slots changes exactly those it holds as OCCUPIED, the one it keeps left out (R56, R58,
R61, R62). -/
theorem kind_giveUp (m : Membership) (id : Byte) (kept : Option Slot) (j : Slot) :
    (m.giveUp id kept).kind j =
      if m.kind j = .occupied id ∧ some j ≠ kept then m.heir j (some id) else m.kind j := by
  unfold Membership.giveUp Membership.kind Membership.mapKinds
  simp

@[simp] theorem outcomeOf_releaseIfHolder (m : Membership) (k j : Slot) (id : Byte) :
    (m.releaseIfHolder k id).outcomeOf j = m.outcomeOf j := by
  unfold Membership.releaseIfHolder; split <;> simp

/-- Holder release leaves slot `k` OCCUPIED or VACANT and every other slot as it is (R58). -/
theorem kind_release (m : Membership) (k : Slot) (giver : Option Byte) :
    ((m.release k giver).kind k = .vacant ∨ ∃ h, (m.release k giver).kind k = .occupied h) ∧
    ∀ j, j ≠ k → (m.release k giver).kind j = m.kind j := by
  unfold Membership.release
  refine ⟨?_, fun j h => by rw [kind_setKind, if_neg h]⟩
  rw [kind_setKind, if_pos rfl]
  rcases heir_cases m k giver with ⟨p, _, _, _, h⟩ | h
  · exact Or.inr ⟨_, h⟩
  · exact Or.inl h

/-- Holder release for a peer changes a slot only where that peer is the OCCUPIED holder (log 11). -/
theorem kind_releaseIfHolder (m : Membership) (k j : Slot) (id : Byte) :
    (m.releaseIfHolder k id).kind j = m.kind j ∨
    j = k ∧ m.kind j = .occupied id ∧
      ((m.releaseIfHolder k id).kind j = .vacant ∨ ∃ h, (m.releaseIfHolder k id).kind j = .occupied h) := by
  unfold Membership.releaseIfHolder
  split
  · rename_i h
    by_cases hj : j = k
    · subst hj
      exact Or.inr ⟨rfl, h, (kind_release m j (some id)).1⟩
    · exact Or.inl ((kind_release m k (some id)).2 j hj)
  · exact Or.inl rfl

/-! ## Losing peers (R63 to R65) -/

theorem losePeer_peers (p : PeerEntry) (reason : LostReason) (s : State) :
    (s.losePeer p reason).member.peers = s.member.peers.filter fun q => decide (q.id ≠ p.id) := by
  unfold State.losePeer; dsimp only; split <;> simp

@[simp] theorem losePeer_outcomeOf (p : PeerEntry) (reason : LostReason) (s : State) (j : Slot) :
    (s.losePeer p reason).member.outcomeOf j = s.member.outcomeOf j := by
  unfold State.losePeer; dsimp only; split
  · have := outcomeOf_releaseIfHolder
      { s.member with peers := s.member.peers.filter fun q => decide (q.id ≠ p.id) } ‹Slot› j p.id
    exact this
  · rfl

/-- Losing a peer changes a slot only where that peer is the OCCUPIED holder. -/
theorem losePeer_kind (p : PeerEntry) (reason : LostReason) (s : State) (j : Slot) :
    (s.losePeer p reason).member.kind j = s.member.kind j ∨
    s.member.kind j = .occupied p.id ∧ ((s.losePeer p reason).member.kind j = .vacant ∨
      ∃ h, (s.losePeer p reason).member.kind j = .occupied h) := by
  unfold State.losePeer; dsimp only; split
  · rcases kind_releaseIfHolder
      { s.member with peers := s.member.peers.filter fun q => decide (q.id ≠ p.id) } ‹Slot› j p.id with h | ⟨_, h1, h2⟩
    · exact Or.inl h
    · exact Or.inr ⟨h1, h2⟩
  · exact Or.inl rfl

theorem foldl_losePeer_peers (l : List PeerEntry) (reason : LostReason) (s : State) :
    (l.foldl (fun s p => s.losePeer p reason) s).member.peers =
      s.member.peers.filter fun q => decide (∀ p ∈ l, q.id ≠ p.id) := by
  induction l generalizing s with
  | nil => simp
  | cons x xs ih =>
    rw [List.foldl_cons, ih, losePeer_peers, List.filter_filter]
    congr 1
    funext q
    rw [Bool.eq_iff_iff]
    simp [and_comm]

theorem foldl_losePeer_outcomeOf (l : List PeerEntry) (reason : LostReason) (s : State) (j : Slot) :
    (l.foldl (fun s p => s.losePeer p reason) s).member.outcomeOf j = s.member.outcomeOf j :=
  foldl_field (fun s => s.member.outcomeOf j) (fun s x => losePeer_outcomeOf x reason s j) l s

/-! ## Drawing targets and entering BACKOFF and CLAIMING (R68, R76, R86) -/

@[simp] theorem enterBackoff_member (n : Nat) (s : State) :
    (s.enterBackoff n).member = { s.member.clearItems with station := .backoff, backoff := n } := by
  unfold State.enterBackoff; simp

@[simp] theorem drawBackoff_member (s : State) :
    s.drawBackoff.member = { s.member.clearItems with
      station := .backoff, lfsr := lfsrDraw s.member.lfsr
      backoff := 1 + (lfsrDraw s.member.lfsr).toNat % 8 } := by
  unfold State.drawBackoff; simp [Membership.clearItems]

theorem mem_vacant {m : Membership} {k : Slot} : k ∈ m.vacant ↔ 4 ≤ k.val ∧ m.kind k = .vacant := by
  unfold Membership.vacant claimable
  simp

/-- A target draw: a VACANT claimable slot is drawn, or there is none and BACKOFF (8) is entered. -/
theorem drawTarget_cases (s : State) :
    (∃ k, s.member.vacant[(lfsrDraw s.member.lfsr).toNat % s.member.vacant.length]? = some k ∧
      k ∈ s.member.vacant ∧
      s.drawTarget = s.updMember fun m => { m with lfsr := lfsrDraw s.member.lfsr, target := some k }) ∨
    (s.member.vacant = [] ∧ s.drawTarget = (s.queue .cellFull).enterBackoff 8) := by
  unfold State.drawTarget
  split
  · rename_i h; exact Or.inr ⟨h, rfl⟩
  · rename_i k rest h
    refine Or.inl ⟨_, ?_, ?_, rfl⟩
    · rw [h, List.length_cons, List.getD_eq_getElem?_getD]
      have : (lfsrDraw s.member.lfsr).toNat % (rest.length + 1) < (k :: rest).length :=
        Nat.mod_lt _ (Nat.succ_pos _)
      rw [List.getElem?_eq_getElem this]
      rfl
    · rw [h, List.getD_eq_getElem?_getD]
      have : (lfsrDraw s.member.lfsr).toNat % (rest.length + 1) < (k :: rest).length :=
        Nat.mod_lt _ (Nat.succ_pos _)
      rw [List.getElem?_eq_getElem this]
      exact List.getElem_mem _

@[simp] theorem drawTarget_slots (s : State) : s.drawTarget.member.slots = s.member.slots := by
  rcases drawTarget_cases s with ⟨k, _, _, h⟩ | ⟨_, h⟩ <;> rw [h] <;> simp

@[simp] theorem drawTarget_peers (s : State) : s.drawTarget.member.peers = s.member.peers := by
  rcases drawTarget_cases s with ⟨k, _, _, h⟩ | ⟨_, h⟩ <;> rw [h] <;> simp

@[simp] theorem drawTarget_candidate (s : State) : s.drawTarget.member.candidate = s.member.candidate := by
  rcases drawTarget_cases s with ⟨k, _, _, h⟩ | ⟨_, h⟩ <;> rw [h] <;> simp

@[simp] theorem enterClaiming_slots (s : State) : s.enterClaiming.member.slots = s.member.slots := by
  unfold State.enterClaiming; simp

@[simp] theorem enterClaiming_peers (s : State) : s.enterClaiming.member.peers = s.member.peers := by
  unfold State.enterClaiming; simp

@[simp] theorem redrawTarget_slots (s : State) : s.redrawTarget.member.slots = s.member.slots := by
  unfold State.redrawTarget; simp

@[simp] theorem redrawTarget_peers (s : State) : s.redrawTarget.member.peers = s.member.peers := by
  unfold State.redrawTarget; simp

@[simp] theorem drawPosition_slots (s : State) : s.drawPosition.member.slots = s.member.slots := by
  unfold State.drawPosition; dsimp only; split <;> simp

@[simp] theorem wrapStation_slots (round : Round) (s : State) :
    (s.wrapStation round).member.slots = s.member.slots := by
  unfold State.wrapStation; (repeat' split) <;> simp

@[simp] theorem wrapStation_peers (round : Round) (s : State) :
    (s.wrapStation round).member.peers = s.member.peers := by
  unfold State.wrapStation; (repeat' split) <;> simp

end Sys2Proof.Machine
end

