-- ==== Sys2Proof/Laws/Line.lean ====
section
/-! SUPPORT. The line unit along IRRX: where its next event lies, and what running to the end of the LF period does. -/

namespace Sys2Proof.Machine

/-! ## Along IRRX (R21 to R23, R26, R27) -/

/-- One microsecond of IRRX leaves window and carrier history. -/
theorem sample_keeps (l : LineUnit) (level : Bool) :
    (l.sample level).1.window = l.window ∧ (l.sample level).1.history = l.history ∧
    (l.sample level).1.carrierNow = l.carrierNow ∧ (l.sample level).1.wave = l.wave ∧
    (l.sample level).1.irrx = level := by
  unfold LineUnit.sample
  dsimp only
  (repeat' split) <;> simp

/-- Where something comes about, a part of IRRX has passed, and window and carrier history are as they were. -/
theorem along_keeps {levels : List Bool} {l m : LineUnit} {e : LineEvent} (h : l.along levels = some (m, e)) :
    m.window = l.window ∧ m.history = l.history ∧ m.carrierNow = l.carrierNow ∧
    m.wave.length < levels.length := by
  induction levels generalizing l with
  | nil => cases h
  | cons level rest ih =>
    have k := sample_keeps { l with wave := rest } level
    rw [LineUnit.along] at h
    split at h
    · rename_i l' event he
      rw [he] at k
      obtain ⟨h1, h2⟩ := Prod.mk.inj (Option.some.inj h)
      subst h1
      exact ⟨k.1, k.2.1, k.2.2.1, by rw [k.2.2.2.1]; simp⟩
    · rename_i l' he
      rw [he] at k
      have := ih h
      exact ⟨this.1.trans k.1, this.2.1.trans k.2.1, this.2.2.1.trans k.2.2.1, by simp; omega⟩

/-- What an event of the line unit brings about leaves the rest of IRRX to come. -/
theorem takeLineEvent_wave (event : LineEvent) (s : State) :
    (State.takeLineEvent event s).line.wave = s.line.wave := by
  have rearm : ∀ s : State, s.rearm.line.wave = s.line.wave := fun s => by
    unfold State.rearm; split <;> rfl
  have freeRx : ∀ s : State, s.freeRx.line.wave = s.line.wave := fun s => rfl
  have withdraw : ∀ (k : FrameKind) (s : State), (s.withdrawFrame k).line.wave = s.line.wave := fun k s => by
    unfold State.withdrawFrame; (repeat' split) <;> rfl
  have enterBackoff : ∀ (n : Nat) (s : State), (s.enterBackoff n).line.wave = s.line.wave := fun n s => by
    unfold State.enterBackoff; rw [rearm]; rfl
  have drawTarget : ∀ s : State, s.drawTarget.line.wave = s.line.wave := fun s => by
    unfold State.drawTarget; split
    · rw [enterBackoff]; simp
    · rfl
  have redraw : ∀ s : State, s.redrawTarget.line.wave = s.line.wave := fun s => by
    unfold State.redrawTarget; rw [drawTarget, State.updMember_line, withdraw]
  have drawBackoff : ∀ s : State, s.drawBackoff.line.wave = s.line.wave := fun s => by
    unfold State.drawBackoff; rw [enterBackoff]; rfl
  have yield_ : ∀ s : State, s.yieldSlot.line.wave = s.line.wave := fun s => by
    unfold State.yieldSlot; split
    · rw [drawBackoff]; simp [withdraw]
    · rfl
  have strike : ∀ (r : Round) (o : Option Byte) (s : State), (s.takeStrike r o).line.wave = s.line.wave :=
    fun r o s => by
      unfold State.takeStrike; dsimp only
      (repeat' split) <;> simp [yield_]
  have ready : ∀ s : State, s.enterReady.line.wave = s.line.wave := fun s => by
    unfold State.enterReady; simp [LineUnit.cutOff]
  have leave : ∀ s : State, s.completeLeave.line.wave = s.line.wave := fun s => by
    unfold State.completeLeave; simp [ready]
  have leaving : ∀ s : State, s.countLeaving.line.wave = s.line.wave := fun s => by
    unfold State.countLeaving; split <;> simp [leave]
  have beaconCollided : ∀ (f : OutFrame) (k : Slot) (g : BeaconFlag) (s : State),
      (s.beaconCollided f k g).line.wave = s.line.wave := fun f k g s => by
    unfold State.beaconCollided; dsimp only; (repeat' split) <;> simp [strike, leaving]
  have beaconSent : ∀ (f : OutFrame) (k : Slot) (g : BeaconFlag) (s : State),
      (s.beaconSent f k g).line.wave = s.line.wave := fun f k g s => by
    unfold State.beaconSent; dsimp only; (repeat' split) <;> simp [leaving]
  have claimCollided : ∀ s : State, s.claimCollided.line.wave = s.line.wave := fun s => by
    unfold State.claimCollided; dsimp only; (repeat' split) <;> simp [drawBackoff, redraw]
  have claimSent : ∀ (f : OutFrame) (s : State), (s.claimSent f).line.wave = s.line.wave := fun f s => by
    unfold State.claimSent; dsimp only; (repeat' split) <;> simp [redraw]
  cases event
  · rfl
  · show s.endReception.line.wave = _
    unfold State.endReception; split <;> simp [freeRx]
  · show s.reportCollided.line.wave = _
    unfold State.reportCollided; dsimp only
    (repeat' split) <;> simp [beaconCollided, claimCollided, freeRx]
  · show s.reportSent.line.wave = _
    unfold State.reportSent; dsimp only
    (repeat' split) <;> simp [beaconSent, claimSent, freeRx]

theorem enterReady_powerState {s : State} (h : s.power.state ≠ .doze) :
    s.enterReady.power.state = s.power.state := by
  unfold State.enterReady; simp [settleCues_power h]

theorem countLeaving_powerState {s : State} (h : s.power.state ≠ .doze) :
    s.countLeaving.power.state = s.power.state := by
  unfold State.countLeaving
  split
  · rfl
  · unfold State.completeLeave; simp [enterReady_powerState h]

/-- No event of the line unit ends AWAKE. -/
theorem takeLineEvent_awake {s : State} (h : s.Awake) (event : LineEvent) :
    (State.takeLineEvent event s).Awake := by
  refine ⟨by simp [h.1], ?_⟩
  have hd : s.power.state ≠ .doze := by rw [h.2]; decide
  rw [← h.2]
  cases event
  · rfl
  · show s.endReception.power.state = _
    simp
  · show s.reportCollided.power.state = _
    unfold State.reportCollided State.beaconCollided; dsimp only
    (repeat' split) <;> first | (rw [countLeaving_powerState (by simpa using hd)]; simp) | simp
  · show s.reportSent.power.state = _
    unfold State.reportSent State.beaconSent; dsimp only
    (repeat' split) <;> first | (rw [countLeaving_powerState (by simpa using hd)]; simp) | simp

/-- One microsecond of IRRX in which something comes about. -/
theorem sampleWave_of_event {s : State} {level : Bool} {rest : List Bool} {l : LineUnit} {event : LineEvent}
    (hw : s.line.wave = level :: rest) (h : ({ s.line with wave := rest }).sample level = (l, some event)) :
    s.sampleWave = State.takeLineEvent event { s with line := l } := by
  simp only [State.sampleWave, hw, h]

/-- One microsecond of IRRX in which nothing comes about. -/
theorem sampleWave_of_none {s : State} {level : Bool} {rest : List Bool} {l : LineUnit}
    (hw : s.line.wave = level :: rest) (h : ({ s.line with wave := rest }).sample level = (l, none)) :
    s.sampleWave = { s with line := l } := by
  simp only [State.sampleWave, hw, h]

/-- Up to the next event the iteration does what `along` says. -/
theorem iterate_sampleWave_of_along {levels : List Bool} {s : State} {m : LineUnit} {e : LineEvent}
    (hw : s.line.wave = levels) (h : s.line.along levels = some (m, e)) :
    State.sampleWave^[levels.length] s =
      State.sampleWave^[m.wave.length] (State.takeLineEvent e { s with line := m }) := by
  induction levels generalizing s with
  | nil => cases h
  | cons level rest ih =>
    show State.sampleWave^[rest.length] s.sampleWave = _
    rw [LineUnit.along] at h
    have k := sample_keeps { s.line with wave := rest } level
    split at h
    · rename_i l' event he
      rw [he] at k
      obtain ⟨h1, h2⟩ := Prod.mk.inj (Option.some.inj h)
      subst h1 h2
      rw [sampleWave_of_event hw he, show l'.wave = rest from k.2.2.2.1]
    · rename_i l' he
      rw [he] at k
      rw [sampleWave_of_none hw he]
      exact ih (s := { s with line := l' }) k.2.2.2.1 h

/-- The rest of the LF period from the next event of the line unit on. -/
theorem runWave_of_next {s : State} (ha : s.Awake) {m : LineUnit} {e : LineEvent}
    (h : s.line.next = some (m, e)) :
    s.runWave = (State.takeLineEvent e { s with line := m }).runWave := by
  have hb : (State.takeLineEvent e { s with line := m }).Awake :=
    takeLineEvent_awake (s := { s with line := m }) ha e
  unfold State.runWave
  rw [if_pos ha, if_pos hb, iterate_sampleWave_of_along rfl h, takeLineEvent_wave]

/-- Where nothing more comes about, IRRX passes to the end of the LF period. -/
theorem runWave_of_none {s : State} (h : s.line.next = none) (ha : s.Awake) :
    ∃ l, s.runWave = { s with line := l } ∧ l.wave = [] ∧ l.window = s.line.window ∧
      l.history = s.line.history ∧ l.carrierNow = s.line.carrierNow := by
  unfold State.runWave
  rw [if_pos ha]
  have go : ∀ (levels : List Bool) (s : State), s.line.wave = levels → s.line.along levels = none →
      ∃ l, State.sampleWave^[levels.length] s = { s with line := l } ∧ l.wave = [] ∧
        l.window = s.line.window ∧ l.history = s.line.history ∧ l.carrierNow = s.line.carrierNow := by
    intro levels
    induction levels with
    | nil => intro s hw _; exact ⟨s.line, rfl, hw, rfl, rfl, rfl⟩
    | cons level rest ih =>
      intro s hw h
      show ∃ l, State.sampleWave^[rest.length] s.sampleWave = _ ∧ _
      rw [LineUnit.along] at h
      have k := sample_keeps { s.line with wave := rest } level
      split at h
      · cases h
      · rename_i l' he
        rw [he] at k
        rw [sampleWave_of_none hw he]
        obtain ⟨l, h1, h2, h3, h4, h5⟩ := ih { s with line := l' } k.2.2.2.1 h
        exact ⟨l, h1, h2, h3.trans k.1, h4.trans k.2.1, h5.trans k.2.2.1⟩
  exact go _ s rfl h

end Sys2Proof.Machine
end

