-- ==== Sys2Proof/WellFormed.lean ====
section
/-! DEFINITION. Which operands can occur. The meanings are total on the others too. -/

namespace Sys2Proof

/-- An LF period lasts 30 or 31 whole microseconds, 1/32768 s (log 5). -/
def Instr.wellFormed : Instr → Bool
  | .lfPeriod irrx _ => decide (irrx.length = 30)
  | .powerOn | .rstnActive _ | .resetDone | .slotStart | .roundWrap | .seamPoint _ | .surveyFounding
  | .listenWindowOpen | .windowClose | .markerRecognised _ | .receptionEnd | .transmitStart | .collided
  | .sent | .parseReception | .carryItem | .cueFallsDue | .pulseEnd _ | .recordFiringReport | .enterDoze
  | .wakePlan | .hfStable | .selnAsserted | .commandTaken _ | .fetch _ | .unknownCommand | .malformed
  | .configure | .start | .leave | .restart | .post | .withdraw | .readStatus | .readCue | .readPeer
  | .readSlots | .takeEvent => true

end Sys2Proof
end

