-- ==== Sys2Proof/Tests/Slice0.lean ====
section
/-! SUPPORT. Tests: ill-formed terms, the manual's worked figures, and for every obligation with hypotheses a state
and operands that meet them. -/

open Sys2Proof Sys2Proof.Machine

namespace Sys2Proof.Tests

/-! ## Ill-formed operands -/

/-- R1: an LF period has 30 or 31 whole microseconds (log 5). -/
theorem test_wf_a_period_of_levels :
    Instr.wellFormed (.lfPeriod (List.replicate 30 true) none) = true ∧
    Instr.wellFormed (.lfPeriod (List.replicate 30 false) (some true)) = true := by decide
theorem test_wf_refuses_a_short_period :
    Instr.wellFormed (.lfPeriod (List.replicate 29 true) (some true)) = false := by decide
theorem test_wf_refuses_a_long_period : Instr.wellFormed (.lfPeriod (List.replicate 31 true) none) = false := by decide

/-! ## The manual's figures -/

/-- R105's table: the alignment of section 1.3 and its jump size. -/
theorem test_jump_sizes :
    (31610407 : Int).tdiv 32768 = 964 ∧ (498520 : Int).tdiv 32768 = 15 ∧ (98304 : Int).tdiv 32768 = 3 ∧
    (65535 : Int).tdiv 32768 = 1 ∧ (350 : Int).tdiv 32768 = 0 ∧ (-40000 : Int).tdiv 32768 = -1 ∧
    (-70000 : Int).tdiv 32768 = -2 := by decide

/-- R4: rounds are reduced modulo 2^24, and 2^23 apart counts as behind. -/
theorem test_difference_across_the_last_round :
    instantDiff 16384 ⟨0, 5⟩ ⟨16777215, 16380⟩ = 9 ∧
    instantDiff 16384 ⟨0x800000, 0⟩ ⟨0, 0⟩ = -8388608 * 16384 := by decide

/-- R7, R8, R9, R19 at S = 512. -/
theorem test_landmarks :
    beaconStartPhase 0 9 = 4624 ∧ claimStartPhase 0 15 = 1936 ∧ seamPhase 0 = 16320 ∧
    windowOpenPhase 0 0 = 16320 ∧ windowOpenPhase 0 4 = 1984 ∧ windowClosePhase 0 3 = 1973 ∧
    windowClosePhase 0 9 = 4661 := by decide

/-- R17: a half with carrier in five of its ten microseconds shows a burst, one with four does not. -/
theorem test_half_cells :
    ((HalfCell.mk 9 4).take true).2 = some true ∧ ((HalfCell.mk 9 4).take false).2 = some false ∧
    ((HalfCell.mk 8 8).take true).2 = none := by decide

/-- R17, R18: the marker's halves. -/
theorem test_marker_halves :
    emissionHalves [] = [true, true, true, true, true, false, false, true,
      true, false, false, true, true, false, false, true] := by decide

/-- R95 with no, three and five samples, and clamped. -/
theorem test_corrections :
    correctionOf [] = 0 ∧ correctionOf [3, 4, 4] = -3 ∧ correctionOf [-20, 5, 6, 7, 30] = -6 ∧
    correctionOf [-9, -10] = 8 ∧ correctionOf [32] = -8 := by decide

/-- R141. -/
theorem test_actions :
    applyAction .pulse 20 (.pulsing 30) = .pulsing 30 ∧ applyAction .toggle 0 (.pulsing 3) = .idle ∧
    applyAction .pulse 20 .held = .held := by decide

/-- R160: the judgement of records. -/
theorem test_records :
    judgeRecord 0x02 [0] = .command .start ∧ judgeRecord 0x02 [1] = .malformed 0x02 ∧
    judgeRecord 0x06 [1] = .malformed 0x06 ∧ judgeRecord 0x0C [0] = .unknown 0x0C ∧
    judgeRecord 0x07 [] = .malformed 0x07 := by decide

/-- R68: one step by the taps, and the seed. -/
theorem test_lfsr : lfsrStep 0x8000 = 1 ∧ lfsrStep 0xA000 = 0x4000 ∧ lfsrSeed 1 257 = 1 := by decide

/-! ## States to start from -/

/-- The configuration of station 7: L 16384, every group, doze enabled. -/
def settings : ConfigRecord := { id := 7, lengthCode := 0, mask := 0xFF, polarities := 0, doze := 1, current := 0 }

/-- Station 7, AWAKE in a state, with the clock at 5:`phase`, reached by counting. -/
def station (state : StationState) (phase : Nat) : State :=
  { State.reset with
    timer := { RoundTimer.reset with clock := ⟨5, phase⟩, counted := true }
    member := { Membership.reset with station := state, lfsr := 0x1234 }
    power := { PowerController.reset with state := .awake }
    port := { HostPort.reset with config := some settings, locked := true } }

/-- The same holding slot 9. -/
def holding (state : StationState) (phase : Nat) : State :=
  (station state phase).updMember fun m => { m.setKind 9 .own with ownSlot := some 9, claimRound := some 5 }

/-- A reception in progress. -/
def reception : Reception :=
  { arrival := ⟨5, 4629⟩, slot := 9, bytes := [0xB2], part := [true], silentHeld := true, damaged := false,
    first := some false, half := ⟨9, 0⟩ }

/-- With the oldest taken record. -/
def taking (r : TakenRecord) (s : State) : State := s.updPort fun p => { p with taken := [r] }

/-- With one reception waiting that arrived at 5:`phase` with the bytes of a frame. -/
def hearing (f : Frame) (phase : Nat) (s : State) : State :=
  s.updFrame fun u => { u with waiting :=
    [{ arrival := ⟨5, phase⟩, slot := 12, bytes := f.bytes, condition := .complete, age := 0 }] }

/-- With an announcement due. -/
def announcing (b : Boundary) (s : State) : State := s.updTimer fun t => { t with due := some b }

/-- A SETTLED beacon of station 3 in slot 12 of round 5, which flags slot 9 as garbled. -/
def beacon3 : Frame := .beacon .settled 3 5 12 4 3 0x00400000 []

/-- A SETTLED beacon of station 3 that names slot 9 and flags it as garbled. -/
def ownBeacon : Frame := .beacon .settled 3 5 9 4 3 0x00400000 []

/-- A claim of station 3 at position 2 for slot `t`. -/
def claim3 (t : Slot) : Frame := .claim 3 5 2 t

/-- A cue of station 3 due at 5:`phase`. -/
def cue3 (phase : Nat) : CueEntry :=
  { origin := 3, seq := 1, due := ⟨5, phase⟩, line := 1, action := .pulse, width := 20, mask := 4,
    state := .pending, forward := 0, own := false }

/-- The peer 3 in slot 12. -/
def peer3 : PeerEntry :=
  { id := 3, slot := some 12, state := .settled, heard := 4, missed := 0, report := none }

/-- A cue of station 3 as an item. -/
def item3 (phase : Nat) : CarryItem := (cue3 phase).toItem

/-- A station at phase `phase` with slot 9's window open. -/
def windowed (phase : Nat) (marker transmitted : Bool) : State :=
  (station .settled phase).updLine fun l =>
    { l with window := some ⟨9, 5, marker, transmitted⟩, rx := .armed [] }

/-- A frame of this station started at 5:4624, `halves` of it emitted and the next one judged so far, with what IRRX
is still to show. -/
def emitting (kind : FrameKind) (halves : Nat) (half : HalfCell) (wave : List Bool) (s : State) : State :=
  s.updLine fun l =>
    { l with tx := .sending { kind := kind, bytes := [1], start := ⟨5, 4624⟩ } halves half, rx := .echo, wave := wave }

/-- The frame unit has handed over the beacon of slot 9. -/
def handing (flag : BeaconFlag) (s : State) : State := s.updFrame fun u => { u with sending := some (.beacon 9 flag) }

/-! ## Short runs -/

/-- What a next state shows; none after a fault or a refusal. -/
def seen {α : Type} (f : State → α) : Host.Outcome State Fault Refusal → Option α
  | .next t => some (f t)
  | .fault _ => none
  | .refused _ => none

/-- R2, R68, R166: CONFIGURE at phase 100. -/
theorem test_configure :
    seen (fun t => (t.member.station, t.member.lfsr, t.port.locked, t.port.response.map Response.bytes))
      (exec .configure (taking (.command (.configure settings))
        { State.reset with timer := { RoundTimer.reset with clock := ⟨0, 100⟩ }
                           power := { PowerController.reset with state := .awake } })) =
    some (.ready, 1799 ^^^ 100, true, some [0, 1, 0, 0, 0]) := by decide

/-- R110, R111: a POST due in two rounds exactly, and one a PU earlier. -/
theorem test_post :
    seen (fun t => (t.cues.entries.length, t.cues.nextSeq, t.port.response.map Response.bytes))
      (exec .post (taking (.command (.post ⟨1, 1, 20, 4, 7, 100⟩)) (holding .settled 100))) =
      some (1, 1, some [0, 5, 0, 0, 1, 0]) ∧
    seen (fun t => (t.cues.entries.length, t.cues.nextSeq, t.port.response.map Response.bytes))
      (exec .post (taking (.command (.post ⟨1, 1, 20, 4, 7, 99⟩)) (holding .settled 100))) =
      some (0, 0, some [4, 5, 0, 0, 0]) := by decide

/-- R139 to R141: a cue of this station's group fires at its instant. -/
theorem test_cue_fires :
    seen (fun t => ((t.firing.lines[1]).state, t.firing.reports))
      (exec .cueFallsDue ((station .settled 100).updCues fun c => { c with entries := [cue3 100] })) =
    some (.pulsing 20, [⟨3, 1, .fired, 0⟩]) := by decide

/-- R161: the fifth record is not taken, and the lost mark is set. -/
theorem test_fifth_record :
    seen (fun t => (t.port.taken.length, t.port.lost))
      (exec (.commandTaken ([0x02, 0x00].flatMap byteBits))
        ((station .ready 100).updPort fun p => { p with taken := List.replicate 4 (.command .start) })) =
    some (4, true) := by decide

/-- R163: a second response before a FETCH carries LOST. -/
theorem test_lost_flag :
    seen (fun t => t.port.response.map Response.lost)
      (exec .takeEvent (taking (.command .takeEvent)
        ((station .ready 100).updPort fun p => { p with response := some Response.noAnswer }))) =
    some (some true) := by decide

/-- R171: the sixteenth record is OVERFLOW, and further events are counted into it. -/
theorem test_overflow :
    let e : EventRecord := ⟨.founded, ⟨5, 1⟩⟩
    let full := List.replicate 15 e
    appendEvent full e = full ++ [⟨.overflow 1, ⟨5, 1⟩⟩] ∧
    appendEvent (appendEvent full e) e = full ++ [⟨.overflow 2, ⟨5, 1⟩⟩] := by decide

/-- R150, R153: a station in READY dozes with no wake instant; the last wake cause stays. -/
theorem test_doze :
    seen (fun t => (t.power.state, t.power.wake, t.power.dozed)) (exec .enterDoze (station .ready 100)) =
    some (.doze, none, true) := by decide

/-- R54: an entry of neither the ended round nor the new one becomes UNHEARD. -/
theorem test_mark_unheard :
    let m := (Membership.reset.record 9 .garbled 3).markUnheard 4
    ((m.slots[9]).outcome, (m.slots[9]).outcomeRound) = (.unheard, 4) := by decide

/-- R39, R173: slot 0's flag is the most significant bit of the map. -/
theorem test_garbled_map :
    garbledMapOf (fun k => decide (k = 0)) = 0x80000000 ∧ garbledMapOf (fun k => decide (k = 31)) = 1 := by
  decide

/-- R174: building and reading a beacon with its CRC. -/
theorem test_read_beacon : readFrame 16384 7 .complete beacon3.bytes = some beacon3 := by decide +kernel

/-- R43: the same frame with one bit changed is invalid. -/
theorem test_read_damaged_beacon :
    readFrame 16384 7 .complete (beacon3.bytes.set 5 13) = none := by decide +kernel

/-- R175: the status record has 23 bytes, the slots 288, and an event 12. -/
theorem test_record_lengths :
    (station .ready 100).status.bytes.length = 23 ∧
    (Payload.slots (station .ready 100).member.slots).bytes.length = 288 ∧
    (EventRecord.bytes ⟨.strike 9 (some 3), ⟨5, 1⟩⟩).length = 12 := by decide +kernel

/-- R26: the first half of an emission that IRRX shows without a burst stops it at once. -/
theorem test_mismatch_stops_at_its_half :
    seen (fun t => (t.line.tx, t.line.rx, t.member.strikeNow))
      (exec .collided (handing .settled (emitting .beacon 0 ⟨9, 0⟩ [true, true] (holding .settled 4624)))) =
    some (.idle, .disarmed, true) := by decide +kernel

/-- R21: carrier that began before the receiver was ARMED begins no candidate. -/
theorem test_no_candidate_without_an_edge :
    (({ LineUnit.reset with rx := .armed [], irrx := false }).sample false).1.rx = .armed [] ∧
    (({ LineUnit.reset with rx := .armed [], irrx := true }).sample false).1.rx = .armed [⟨0, ⟨1, 1⟩⟩] := by decide

/-- R120: READ_CUE in the LF period in which the entry falls due finds it RETIRED. -/
theorem test_read_cue_in_its_due_period :
    seen (fun t => t.port.response.map fun r => r.payload)
      (exec .readCue (taking (.command (.readCue 0))
        ((station .settled 100).updCues fun c => { c with entries := [cue3 100] }))) =
    some (some (.cue { cue3 100 with state := .retired .fired })) := by decide

/-- R147: RESTART in that period records the firing before the table is emptied. -/
theorem test_restart_fires_what_is_due :
    seen (fun t => t.port.events.map EventRecord.kind)
      (exec .restart (taking (.command .restart)
        ((station .settled 100).updCues fun c => { c with entries := [cue3 100] }))) =
    some [.cueFired 3 1 0, .restarted] := by decide

/-- R150: the bar holds from the start of a full-listen round. -/
theorem test_no_doze_where_a_full_listen_round_begins :
    seen (fun t => t.power.state) (exec .enterDoze
      (announcing .roundWrap ((station .ready 0).updTimer fun t => { t with clock := ⟨16, 0⟩ }))) =
    some .awake := by decide

/-- R12, R30, R144: the seam point's correction by 8 fires the cues it passes over and moves an arrival. -/
theorem test_a_correction_fires_and_moves :
    seen (fun t => (t.firing.reports.map FiringReport.lateness, (t.firing.lines[1]).state,
        t.line.rx))
      (exec (.seamPoint true) { station .settled 16320 with
        cues := { CueTable.reset with entries := [cue3 16321, { cue3 16328 with seq := 2 }] }
        sync := { SyncUnit.reset with samples := [⟨3, -9⟩], listRound := some 5 }
        line := { LineUnit.reset with rx := .receiving reception } }) =
    some ([7, 0], .pulsing 20, .receiving { reception with arrival := ⟨5, 4637⟩ }) := by decide +kernel

/-- R159, R164: a FETCH that SELn has not ended yet, four bits after its second byte, which is 1 (NONE), most significant
bit first; a response written now is kept for the next. -/
theorem test_fetch_in_progress :
    seen (fun t => (t.port.selected, t.port.fetching, t.port.sdo, t.port.response))
      (exec (.fetch ⟨12, false⟩) ((station .ready 100).updPort fun p => { p with response := some Response.noAnswer })) =
    some (true, some (List.replicate 28 false), [false, false, false, false, false, false, false, true] ++
      List.replicate 4 false, none) := by decide

/-- R159, R164: the FETCH code, twelve bits and SELn released: the host has read NONE's code and half a byte. -/
theorem test_fetch_ends_within_a_byte :
    seen (fun t => (t.port.selected, t.port.fetching, t.port.sdo))
      (exec (.commandTaken (byteBits 0xF0 ++ List.replicate 12 true)) (station .ready 100)) =
    some (false, none, [false, false, false, false, false, false, false, true, false, false, false, false]) := by decide

/-- R142: a pulse whose count would reach 0 is over to its pin from the start of the LF period. -/
theorem test_pulse_is_over_at_the_start :
    seen (fun t => ((t.firing.lines[1]).ending, t.actPin 1))
      (exec (.lfPeriod [] none) ((station .ready 100).updFiring fun u =>
        u.updLine 1 fun l => { l with state := .pulsing 1 })) = some (true, false) := by decide +kernel

/-- R56, R58, R60: with the peer table full, station 3, in no entry, gives up the slot it holds when it claims, and when
it beacons in another; a peer that reports the slot takes it over. -/
theorem test_a_holder_in_no_entry_gives_its_slot_up :
    let full : State := (station .settled 6200).updMember fun m => { m.setKind 10 (.occupied 3) with
      peers := (List.range 28).map fun i => { peer3 with id := BitVec.ofNat 8 (i + 100), slot := some 20 } }
    let shared : State := full.updMember fun m =>
      { m with peers := m.peers.map fun p => { p with slot := if p.id = 105 then some 10 else p.slot } }
    seen (fun t => (t.member.kind 10, t.member.kind 12)) (exec .parseReception (hearing (claim3 12) 277 full)) =
      some (.vacant, .claimed 3 5) ∧
    seen (fun t => (t.member.kind 10, t.member.kind 12)) (exec .parseReception (hearing beacon3 6165 shared)) =
      some (.occupied 105, .occupied 3) := by decide +kernel

/-- R82: a SETTLED beacon naming the own slot is no strike. -/
theorem test_beacon_of_the_own_slot_is_no_strike :
    seen (fun t => (t.member.strikeNow, t.member.strikeBefore, t.member.kind 9))
      (exec .parseReception (hearing ownBeacon 4629 (holding .settled 4700))) =
    some (false, false, .own) := by decide +kernel

/-! ## What meets the hypotheses of the obligations -/

theorem test_witness_StepExecutesFrontCommand : State.reset.pending = [] := by decide

theorem test_witness_ColdResetClearsEveryBlockUntilItsEnd :
    (10 ≤ 10 ∧ (station .settled 100).resetting = none ∧ 9 < 10 ∧
      { station .settled 100 with resetting := some .resetLine }.resetting = some .resetLine) ∧
    let s := { State.reset with resetting := some .powerOn, port := HostPort.reset }
    s.resetting = some .powerOn ∧ s.port.events = [] ∧ s.timer.clock = ⟨0, 0⟩ ∧ State.reset.resetting = none := by
  decide

theorem test_witness_NothingActsInColdReset :
    let s := { State.reset with resetting := some .powerOn }
    s.resetting.isSome = true ∧ s.firing = FiringUnit.reset ∧ Instr.slotStart ≠ .powerOn ∧
      (∀ low, Instr.slotStart ≠ .rstnActive low) ∧ Instr.slotStart ≠ .resetDone :=
  ⟨rfl, rfl, by decide, fun _ => by simp, by decide⟩

theorem test_witness_InstantArithmetic :
    (0 : Nat) < 16384 ∧ (16383 : Nat) < 16384 ∧ -(2 ^ 23 - 1) * (16384 : Int) < (2 ^ 23 - 1) * 16384 - 1 ∧
    (2 ^ 23 - 1) * (16384 : Int) - 1 < (2 ^ 23 - 1) * 16384 := by decide

theorem test_witness_LfPeriodCountsTheClock :
    (∀ phase ∈ [0, 511, 16383], (station .settled phase).resetting = none ∧ (station .settled phase).ClockOk ∧
      (station .settled phase).seamDue = false ∧ (station .settled phase).member.station ≠ .survey) ∧
    (∀ state ∈ [StationState.survey, .settled], (station state 16320).resetting = none ∧
      (station state 16320).ClockOk ∧ (station state 16320).seamDue = true ∧
      ¬ (station state 16320).HandOverOld) := by
  unfold State.ClockOk State.HandOverOld
  decide

theorem test_witness_LfPeriodBringsAboutWhatIsOwed :
    let s := windowed 4661 false false
    let e := emitting .beacon 0 ⟨9, 0⟩ [true, true] (holding .settled 4624)
    let r := (hearing beacon3 6165 (station .settled 6300)).updFrame fun u => { u with itemsAge := 48, items := [item3 200] }
    (s.resetting = none ∧ s.Awake ∧ s.line.next = none) ∧
    (e.Awake ∧ (e.line.next.map Prod.snd) = some .collided) ∧
    (r.Awake ∧ r.HandOverOld) ∧ ¬ (s.updPower fun p => { p with state := .doze }).Awake := by
  unfold State.HandOverOld
  decide +kernel

/-- Stations that owe nothing and enter no doze: not configured; listening, with doze permitted, once with a start-up
long past; starting, with doze permitted; and dozing. -/
def busyStations : List State :=
  [station .unconfigured 100, (windowed 100 true false).updPower fun p => { p with startAge := 60 },
    (station .settled 100).updPower fun p => { p with state := .starting },
    (station .settled 100).updPower fun p => { p with state := .doze, wake := some ⟨5, 384⟩ }]

theorem test_witness_LfPeriodChangesNothingElse : ∀ s ∈ busyStations, s.resetting = none ∧ s.NothingOwed := by
  intro s h
  simp only [busyStations, List.mem_cons, List.not_mem_nil, or_false] at h
  rcases h with rfl | rfl | rfl | rfl
  all_goals
    refine ⟨rfl, by decide, by decide, rfl, ?_, by decide, rfl, ?_, by decide, by decide, Or.inl (by decide), by decide,
      by decide, ?_, rfl⟩
    · intro f h
      cases h
    · intro w h
      cases h <;> decide
    · unfold State.HandOverOld
      decide

/-- A station that claims, with a claim in hand for position 6 and slot 12. -/
def claimant : State :=
  (station .claiming 512).updMember fun m => { m with target := some 12, claim := some ⟨6, 12⟩ }

theorem test_witness_SlotStartBuildsTheFrames :
    (∀ state ∈ [StationState.tentative, .settled, .leaving],
      let s := announcing (.slotStart 9) (holding state 4608)
      s.Awake ∧ s.timer.due = some (.slotStart 9) ∧ s.member.kind 9 = .own ∧ s.member.station = state ∧
        s.line.tx = .idle) ∧
    (let s := announcing (.slotStart 1) claimant
     s.Awake ∧ s.timer.due = some (.slotStart 1) ∧ s.member.kind 1 ≠ .own ∧ s.member.station = .claiming ∧
      s.member.claim = some ⟨6, 12⟩ ∧ (6 : Fin 16).val / 4 = (1 : Slot).val ∧ s.line.tx = .idle) ∧
    ((announcing (.slotStart 2) claimant).resetting = none ∧
      (announcing (.slotStart 2) claimant).member.kind 2 ≠ .own ∧
      ∀ c, (announcing (.slotStart 2) claimant).member.claim = some c → c.position.val / 4 ≠ (2 : Slot).val) ∧
    ∀ k, claimant.timer.due ≠ some (.slotStart k) := by
  refine ⟨by decide, by decide, ⟨rfl, by decide, ?_⟩, by decide⟩
  intro c h
  cases h
  decide

theorem test_witness_CarrySelectionTakesTheFirstThreeEligible : [cue3 100][0]? = some (cue3 100) := by decide

theorem test_witness_RoundWrapSetsTheBarAndSweeps_and_RoundWrapUpdatesTheTables :
    let s := announcing .roundWrap ((holding .settled 0).updMember fun m => { m with peers := [peer3] })
    s.Awake ∧ s.timer.due = some .roundWrap ∧ s.member.PeersOk ∧
    (s.updPower fun p => { p with state := .doze }).power.state ≠ .awake ∧
    (station .ready 0).timer.due ≠ some .roundWrap := by
  unfold Membership.PeersOk
  decide

theorem test_witness_HolderReleasePassesTheSlotOn :
    let m := ({ Membership.reset with peers := [peer3, { peer3 with id := 4 }] }).setKind 12 (.occupied 3)
    m.PeersOk ∧ peer3 ∈ m.peers ∧ peer3.slot = some 12 ∧ peer3.state ≠ .claimant ∧
    (∀ q ∈ m.peers, q.slot = some 12 → q.state ≠ .claimant → some q.id ≠ none → peer3.id.toNat ≤ q.id.toNat) ∧
    (∀ p ∈ m.peers, p.slot = some 11 → p.state ≠ .claimant → some p.id = none) := by
  unfold Membership.PeersOk
  decide

theorem test_witness_RoundWrapMovesTheStation :
    (let s := announcing .roundWrap claimant
     s.Awake ∧ s.timer.due = some .roundWrap ∧ s.member.station = .claiming ∧ s.member.target = some 12 ∧
      s.line.tx = .idle) ∧
    (∀ n : Fin 9, (announcing .roundWrap ((station .backoff 0).updMember fun m => { m with backoff := n.val })).Awake) ∧
    (announcing .roundWrap (holding .tentative 0)).member.station = .tentative ∧
    ((station .survey 0).updMember fun m => { m with surveyEnd := some 5 }).WaitEnds ∧
    (station .backoff 0).WaitEnds ∧ (station .backoff 0).member.vacant.length = 28 ∧
    ((station .backoff 0).updMember fun m => m.mapKinds fun _ _ => .occupied 3).member.vacant = [] := by decide

theorem test_witness_SamplesGiveTheCorrection :
    ((1 ≤ [8].length ∧ [8].length ≤ 3) ∧ 4 ≤ [1, 2, 2, 3].length ∧ (3 : Int) ∈ [1, 2, 2, 3] ∧
      (1 : Int) ∈ [1, 2, 2, 3] ∧ (∀ x ∈ [1, 2, 2, 3], x ≤ (3 : Int)) ∧ (∀ x ∈ [1, 2, 2, 3], (1 : Int) ≤ x) ∧
      [1, 2].Perm [2, 1]) ∧
    let u : SyncUnit := { SyncUnit.reset with closedRound := some 4, listRound := some 5 }
    u.closedRound = some 4 ∧ u.closedRound ≠ some 6 ∧ u.listRound ≠ some 6 ∧ u.closedRound ≠ some 5 ∧
    u.listRound = some 5 := by decide

/-- A station at its seam point that has heard a foreign cell of `members` stations. -/
def offered (state : StationState) (members : Byte) : State :=
  (holding state 16320).updMember fun m => { m with candidate := some ⟨3, members, 3, 0⟩ }

theorem test_witness_SeamPointCorrectsTheClock :
    ((station .settled 16320).Awake ∧ (station .settled 16320).seamDue = true ∧
      (station .settled 16320).member.station.inCell = true ∧
      ∀ c, (station .settled 16320).member.candidate = some c → ¬ DecidesToMove ⟨1, 7⟩ 7 c) ∧
    ((station .survey 16320).seamDue = true ∧ (station .survey 16320).member.station.inCell = false) ∧
    (((station .settled 16320).updPower fun p => { p with state := .starting }).seamDue = true) ∧
    ((station .settled 16320).updLine fun l => { l with rx := .receiving reception }).line.rx = .receiving reception ∧
    (station .settled 16319).seamDue = false := by
  refine ⟨⟨by decide, by decide, by decide, ?_⟩, by decide⟩
  intro c h
  cases h

theorem test_witness_CorrectionFiresTheSkippedSpan :
    let s := (station .settled 16320).updCues fun c => { c with entries := [cue3 16320, cue3 16321, cue3 16328] }
    (s.timer.clock.phase = s.L - 64 ∧ -8 ≤ (8 : Int) ∧ (8 : Int) ≤ 8 ∧ (s.skippedBy 8).length = 2) ∧
    s.Awake ∧ s.seamDue = true ∧ s.member.station.inCell = true ∧ s.member.station ≠ .leaving ∧
    ∀ cand, s.member.candidate = some cand → ¬ DecidesToMove s.tag s.ownId cand := by
  refine ⟨by decide, by decide, by decide, by decide, by decide, ?_⟩
  intro cand h
  cases h

theorem test_witness_SeamPointMovesTheStation :
    (∀ state ∈ [StationState.settled, .leaving],
      (offered state 9).Awake ∧ (offered state 9).seamDue = true ∧ state.inCell = true ∧
      (offered state 9).member.candidate = some ⟨3, 9, 3, 0⟩ ∧
      DecidesToMove (offered state 9).tag (offered state 9).ownId ⟨3, 9, 3, 0⟩) := by
  unfold DecidesToMove
  decide

theorem test_witness_SeamPointTestsTheStation :
    let tentative : Nat → State := fun clean => (holding .tentative 16320).updMember fun m =>
      { m with ownOutcome := some .sent, cleanRounds := clean }
    let struck := (holding .settled 16320).updMember fun m => { m with strikeNow := true, strikeBefore := true }
    (∀ s ∈ [tentative 0, tentative 1, struck, holding .settled 16320, station .claiming 16320],
      s.Awake ∧ s.seamDue = true ∧ s.member.station.inCell = true ∧
      (∀ c, s.member.candidate = some c → ¬ DecidesToMove s.tag s.ownId c)) ∧
    (tentative 1).member.ownSlot = some 9 ∧ (tentative 1).member.ownOutcome = some .sent ∧
    (tentative 1).member.strikeNow = false ∧ struck.member.strikeBefore = true := by
  refine ⟨?_, by decide⟩
  intro s hs
  simp only [List.mem_cons, List.not_mem_nil, or_false] at hs
  rcases hs with rfl | rfl | rfl | rfl | rfl
  all_goals
    refine ⟨by decide, by decide, by decide, ?_⟩
    intro c h
    cases h

/-- A survey that began at 3:100. -/
def surveying : State := (station .survey 100).updMember fun m => { m with surveyEntry := some ⟨3, 100⟩ }

theorem test_witness_SurveyFoundsAtTheDeadline :
    surveying.Awake ∧ surveying.member.surveyEnd = none ∧
    2 * (surveying.L : Int) = instantDiff surveying.L surveying.timer.clock ⟨3, 100⟩ ∧
    instantDiff surveying.L surveying.timer.clock ⟨3, 101⟩ < 2 * (surveying.L : Int) := by decide

theorem test_witness_ListenWindowOpensByThePlan :
    (∀ k ∈ [(0 : Slot), 9], let s := holding .settled (windowOpenPhase 0 k)
      s.Awake ∧ s.member.station.inCell = true ∧ s.timer.counted = true ∧ s.line.window = none ∧
      s.timer.clock.phase = (if k.val = 0 then s.L - 64 else k.val * s.S - 64) ∧ s.member.kind k ≠ .vacant) ∧
    ((holding .settled (windowOpenPhase 0 8)).member.kind 8 = .vacant ∧ (5 : Round).toNat % 16 ≠ 0) ∧
    (∀ k : Slot, (holding .settled 100).timer.clock.phase ≠
      if k.val = 0 then (holding .settled 100).L - 64 else k.val * (holding .settled 100).S - 64) ∧
    (station .ready 0).member.station.inCell = false := by decide

theorem test_witness_WindowClosesWithItsReport :
    let s := windowed 4661 false false
    (s.Awake ∧ s.member.station ≠ .survey ∧ s.timer.counted = true ∧ s.line.window = some ⟨9, 5, false, false⟩ ∧
      s.timer.clock.phase = 9 * s.S + 53 ∧ s.member.PeersOk) ∧
    (windowed 4661 true false).line.window = some ⟨9, 5, true, false⟩ ∧
    (windowed 4660 false false).timer.clock.phase ≠ 9 * (windowed 4660 false false).S + 53 ∧
    (station .ready 0).line.window = none := by
  unfold Membership.PeersOk
  decide

theorem test_witness_EchoIsCheckedHalfByHalf :
    let l := (emitting .beacon 0 ⟨4, 4⟩ (List.replicate 6 false ++ [true]) (holding .settled 4624)).line
    l.wave = List.replicate 6 false ++ [true] ∧ 4 + (List.replicate 6 false).length = 10 ∧
    (emissionHalves [1])[0]? = some true ∧ (emissionHalves [1])[35]? = none ∧ 4 + [true].length < 10 ∧
    halfShows 4 (List.replicate 6 false) = true ∧ (holding .settled 4624).Awake := by decide

theorem test_witness_TheReceiverDecodesCellByCell :
    let l := { LineUnit.reset with rx := .receiving reception, wave := [true] }
    l.tx.sendingKind .beacon = false ∧ l.tx.sendingKind .claim = false ∧ l.rx = .receiving reception ∧
    l.wave = [true] ++ [] ∧ 9 + [true].length = 10 ∧ 8 + [true].length < 10 ∧ reception.part.length < 8 ∧
    LineUnit.reset.rx = .disarmed ∧ (9 : Nat) < 10 ∧ (15 : Nat) < 16 ∧ (station .settled 100).Awake ∧
    (Reception.takeCell { reception with silentHeld := false } (Cell.ofHalves false false)).2 = false ∧
    (station .settled 100).line.wave = [] := by decide

theorem test_witness_ReceptionsBeginAndEnd :
    let s := (windowed 4629 false false).updLine fun l => { l with rx := .armed [⟨15, ⟨9, 9⟩⟩], wave := [false] }
    let r := (windowed 4629 true false).updLine fun l => { l with rx := .receiving reception, wave := [true] }
    (s.Awake ∧ (s.line.next.map Prod.snd) = some .marker) ∧
    (r.Awake ∧ (r.line.next.map Prod.snd) = some .receptionEnd) ∧
    (windowed 4629 false false).line.next = none := by decide

/-- A frame of this station due to start now. -/
def starting (kind : FrameKind) (rx : Receiver) : State :=
  (holding .settled 4624).updLine fun l =>
    { l with tx := .pending { kind := kind, bytes := [1], start := ⟨5, 4624⟩ }, rx := rx }

theorem test_witness_FramesStartAtTheirInstant :
    let f : FrameKind → OutFrame := fun kind => { kind := kind, bytes := [1], start := ⟨5, 4624⟩ }
    (∀ kind, (starting kind (.armed [])).Awake ∧ (starting kind (.armed [])).line.tx = .pending (f kind) ∧
      (starting kind (.armed [])).timer.clock = (f kind).start) ∧
    (∃ r, (starting .claim (.receiving reception)).line.rx = .receiving r) ∧
    (∀ r, (starting .claim (.armed [])).line.rx ≠ .receiving r) ∧
    (∀ b ∈ (starting .claim (.armed [])).line.history, b = false) ∧
    ∀ f, (station .settled 4624).line.tx ≠ .pending f := by
  refine ⟨?_, ⟨_, rfl⟩, ?_, by decide, ?_⟩
  · intro kind
    cases kind <;> decide
  · intro r h
    cases h
  · intro f h
    cases h

theorem test_witness_SentReachesTheStation :
    let claims := emitting .claim 51 ⟨9, 0⟩ [true] claimant
    let lost := claims.updMember fun m => m.setKind 12 (.occupied 3)
    let sent : StationState → State := fun state =>
      handing .leaving (emitting .beacon 51 ⟨9, 0⟩ [true] (holding state 4900))
    (claims.Awake ∧ (claims.line.next.map Prod.snd) = some .sent ∧ claims.member.station = .claiming ∧
      claims.member.claim = some ⟨6, 12⟩ ∧ claims.member.kind 12 = .vacant ∧ lost.member.kind 12 = .occupied 3) ∧
    (∀ state ∈ [StationState.tentative, .settled, .leaving],
      (sent state).Awake ∧ ((sent state).line.next.map Prod.snd) = some .sent ∧
      (sent state).frame.sending = some (.beacon 9 .leaving) ∧ (sent state).member.ownSlot = some 9) ∧
    ∀ l, claimant.line.next ≠ some (l, .sent) := by
  refine ⟨by decide, by decide, ?_⟩
  intro l h
  cases h

theorem test_witness_CollidedReachesTheStation :
    let claims := emitting .claim 0 ⟨9, 0⟩ [true] claimant
    let lost := claims.updMember fun m => m.setKind 12 (.claimed 3 5)
    let hit : StationState → State := fun state =>
      handing .leaving (emitting .beacon 0 ⟨9, 0⟩ [true] (holding state 4900))
    (claims.Awake ∧ (claims.line.next.map Prod.snd) = some .collided ∧ claims.member.station = .claiming ∧
      claims.member.target = some 12 ∧ claims.member.tries < 3 ∧ claims.member.kind 12 = .vacant ∧
      lost.member.kind 12 = .claimed 3 5 ∧ (3 : Byte).toNat < lost.ownId.toNat) ∧
    (claims.updMember fun m => { m with tries := 3 }).member.tries = 3 ∧
    (∀ state ∈ [StationState.tentative, .settled, .leaving],
      (hit state).Awake ∧ ((hit state).line.next.map Prod.snd) = some .collided ∧
      (hit state).frame.sending = some (.beacon 9 .leaving) ∧ (hit state).member.ownSlot = some 9 ∧
      (hit state).member.claimRound = some 5 ∧ (hit state).timer.clock.round = 5) ∧
    ((5 : Round) - 5).toInt < 1 ∧ ¬ ((5 : Round) - 4).toInt < 1 := by decide

/-- A beacon and a claim that the station no longer has a part in: its slot given up, LEAVING with a flag of before, the
claim outside CLAIMING. -/
theorem test_witness_OutcomesWithoutEffect :
    ∀ halves ∈ [0, 51],
      let event := if halves = 0 then LineEvent.collided else .sent
      let away := handing .settled (emitting .beacon halves ⟨9, 0⟩ [true] (station .backoff 4900))
      let left := handing .settled (emitting .beacon halves ⟨9, 0⟩ [true] (holding .leaving 4900))
      let claim := emitting .claim halves ⟨9, 0⟩ [true] (station .backoff 4900)
      (∀ s ∈ [away, left, claim], s.Awake ∧ (s.line.next.map Prod.snd) = some event) ∧
      (∀ s ∈ [away, left], s.frame.sending = some (.beacon 9 .settled)) ∧
      away.member.ownSlot = none ∧ left.member.station = .leaving ∧ claim.member.station ≠ .claiming := by decide

theorem test_witness_FramesAreReadExactlyAsBuilt : (16384 : Nat) ≤ 131072 ∧ beacon3.Valid 16384 7 := by
  refine ⟨by decide, ?_⟩
  simp only [beacon3, Frame.Valid]
  decide

theorem test_witness_OutcomesAreRecorded :
    (hearing beacon3 6165 (station .settled 6200)).Parses
      { arrival := ⟨5, 6165⟩, slot := 12, bytes := beacon3.bytes, condition := .complete, age := 0 } [] ∧
    readFrame 16384 7 .damaged beacon3.bytes = none ∧ readFrame 16384 3 .complete beacon3.bytes = none ∧
    Condition.damaged ≠ .complete := by
  refine ⟨⟨by decide, rfl, rfl⟩, by decide +kernel, by decide +kernel, by decide⟩

/-- The reception of a frame, as it waits in `hearing`. -/
def heard (f : Frame) (phase : Nat) : WaitingReception :=
  { arrival := ⟨5, phase⟩, slot := 12, bytes := f.bytes, condition := .complete, age := 0 }

theorem test_witness_ForeignFramesOnlyFormCandidates :
    let s := hearing beacon3 6198 (station .settled 6300)
    s.Parses (heard beacon3 6198) [] ∧ readFrame s.L s.ownId .complete beacon3.bytes = some beacon3 ∧
    32 < s.offsetOf (heard beacon3 6198) beacon3 ∧ s.member.station.inCell = true ∧
    readFrame s.L s.ownId .complete (claim3 9).bytes = some (claim3 9) ∧
    s.offsetOf (heard (claim3 9) 239) (claim3 9) < -32 := by
  refine ⟨⟨by decide, rfl, rfl⟩, by decide +kernel, by decide +kernel, by decide, by decide +kernel,
    by decide +kernel⟩

theorem test_witness_NativeClaimMarksItsTarget :
    let s := hearing (claim3 12) 277 (claimant.updTimer fun t => { t with clock := ⟨5, 300⟩ })
    let t := hearing (claim3 12) 277 (holding .tentative 300)
    s.Parses (heard (claim3 12) 277) [] ∧ readFrame s.L s.ownId .complete (claim3 12).bytes = some (claim3 12) ∧
    s.offsetOf (heard (claim3 12) 277) (claim3 12) = 0 ∧ ¬ s.LosesTheTie 3 12 ∧
    s.member.station = .claiming ∧ s.member.target = some 12 ∧ (SlotKind.claimed 3 5).Lost s.ownId ∧
    s.line.tx.sendingKind .claim = false ∧ t.member.station = .tentative ∧ ¬ t.LosesTheTie 3 12 := by
  refine ⟨⟨by decide, rfl, rfl⟩, by decide +kernel, by decide +kernel, by unfold State.LosesTheTie; decide, by decide,
    by decide, Or.inr ⟨3, 5, rfl, by decide⟩, by decide, by decide, by unfold State.LosesTheTie; decide⟩

theorem test_witness_LowerIdWinsTheTie :
    let s := hearing (claim3 9) 309 (holding .tentative 330)
    let late := hearing (claim3 9) 309 ((holding .tentative 330).updMember fun m => { m with claimRound := some 4 })
    s.Parses (heard (claim3 9) 309) [] ∧ readFrame s.L s.ownId .complete (claim3 9).bytes = some (claim3 9) ∧
    s.offsetOf (heard (claim3 9) 309) (claim3 9) = 32 ∧ s.member.station = .tentative ∧
    s.member.ownSlot = some 9 ∧ s.member.kind 9 = .own ∧ s.LosesTheTie 3 9 ∧ ¬ s.LosesTheTie 8 9 ∧
    late.Parses (heard (claim3 9) 309) [] ∧ late.member.kind 9 = .own ∧ ¬ late.LosesTheTie 3 9 := by
  unfold State.LosesTheTie
  refine ⟨⟨by decide, rfl, rfl⟩, by decide +kernel, by decide +kernel, by decide, by decide, by decide, by decide,
    by decide, ⟨by decide, rfl, rfl⟩, by decide, by decide⟩

theorem test_witness_NativeBeaconMarksItsSlot :
    let s := hearing beacon3 6133 (station .settled 6300)
    let own := hearing ownBeacon 4629 (holding .settled 4700)
    s.Parses (heard beacon3 6133) [] ∧ readFrame s.L s.ownId .complete beacon3.bytes = some beacon3 ∧
    s.offsetOf (heard beacon3 6133) beacon3 = -32 ∧ s.member.station ≠ .survey ∧ s.member.ownSlot ≠ some 9 ∧
    own.Parses (heard ownBeacon 4629) [] ∧ readFrame own.L own.ownId .complete ownBeacon.bytes = some ownBeacon ∧
    own.offsetOf (heard ownBeacon 4629) ownBeacon = 0 ∧ own.member.ownSlot = some 9 := by
  refine ⟨⟨by decide, rfl, rfl⟩, by decide +kernel, by decide +kernel, by decide, by decide, ⟨by decide, rfl, rfl⟩,
    by decide +kernel, by decide +kernel, by decide⟩

/-- A station in slot 9 that has heard beacon 3, as the beacon of `round`. -/
def struckBy (state : StationState) (round : Round) : State :=
  hearing beacon3 6165 ((holding state 6300).updTimer fun t => { t with clock := ⟨round, 6300⟩ })

theorem test_witness_GarbledMapReportsAStrike :
    (∀ state ∈ [StationState.tentative, .settled], let s := struckBy state 5
      s.Awake ∧ s.frame.items = [] ∧ s.frame.waiting = [heard beacon3 6165] ∧
      s.offsetOf (heard beacon3 6165) beacon3 = 0 ∧ s.member.station = state ∧ s.member.ownSlot = some 9 ∧
      s.member.claimRound = some 5) ∧
    readFrame 16384 7 .complete beacon3.bytes = some beacon3 ∧ (9 : Slot) ≠ 12 ∧
    (0x00400000 : BitVec 32).getMsbD (9 : Slot).val = true ∧
    ((5 : Round) = (struckBy .settled 5).timer.clock.round ∧
      (5 : Round) = (struckBy .settled 6).timer.clock.round - 1 ∧
      (5 : Round) ≠ (struckBy .settled 4).timer.clock.round ∧
      (5 : Round) ≠ (struckBy .settled 4).timer.clock.round - 1) ∧ ((5 : Round) - 5).toInt < 1 := by
  refine ⟨by decide +kernel, by decide +kernel, by decide, by decide, by decide, by decide⟩

theorem test_witness_SurveyAlignsToASettledBeacon :
    (∀ phase ∈ [100, 6165], let s := hearing beacon3 phase (station .survey (phase + 20))
      s.Awake ∧ s.frame.items = [] ∧ s.frame.waiting = [heard beacon3 phase] ∧
      s.member.station = .survey ∧ s.member.surveyEnd = none ∧
      instantDiff s.L (instantAdd s.L ⟨5, 12 * s.S + 21⟩ (instantDiff s.L s.timer.clock ⟨5, phase⟩))
        s.timer.clock = 6165 - phase) ∧
    readFrame 16384 7 .complete beacon3.bytes = some beacon3 := by
  refine ⟨by decide +kernel, by decide +kernel⟩

/-- A station with one item in hand and these entries. -/
def handed (entries : List CueEntry) : State :=
  ((station .settled 100).updFrame fun u => { u with items := [item3 101] }).updCues fun c =>
    { c with entries := entries }

theorem test_witness_CarryItemsAreJudged :
    (handed []).Awake ∧ (handed []).frame.items = [item3 101] ∧
    0 < instantDiff 16384 (item3 101).due (handed []).timer.clock ∧
    instantDiff 16384 (item3 100).due (handed []).timer.clock ≤ 0 ∧
    instantDiff 16384 (item3 101).due (instantAddRounds (handed []).timer.clock 4096) ≤ 0 ∧
    (((handed [cue3 101]).itemTaken []).cues.entries.find? fun e =>
      decide (e.origin = 3 ∧ e.seq = 1)) = some (cue3 101) := by decide

/-- Twenty-four entries of station 3, all due at 5:`phase`. -/
def fullTable (state : CueState) (phase : Nat) : List CueEntry :=
  List.replicate 24 { cue3 phase with state := state }

theorem test_witness_NewcomersFindTheirPlace :
    ((handed []).Awake ∧ (item3 101).origin ≠ (handed []).ownId ∧ ((handed []).itemTaken []).cues.entries = []) ∧
    (∀ x ∈ fullTable .pending 200, x.isRetired = true → 0 < instantDiff 16384 x.due ⟨5, 100⟩) ∧
    (∀ x ∈ fullTable (.retired .fired) 100, x.isRetired = true ∧ instantDiff 16384 x.due ⟨5, 100⟩ ≤ 0) ∧
    (∀ x ∈ fullTable (.retired .fired) 101, x.isRetired = true → 0 < instantDiff 16384 x.due ⟨5, 100⟩) ∧
    (∀ x ∈ fullTable (.retired .fired) 101, x.state = .pending → x.own = true) ∧
    24 ≤ (fullTable .pending 200).length := by decide

theorem test_witness_CuesFireAndAreRecorded :
    let s := (station .settled 100).updCues fun c =>
      { c with entries := [cue3 100, { cue3 100 with seq := 2, action := .toggle }] }
    let r := s.updFiring fun u => { u with reports := [⟨3, 1, .fired, 0⟩] }
    s.resetting = none ∧ s.timer.counted = true ∧ s.watched.head? = some (cue3 100) ∧ s.watched.length = 2 ∧
    (cue3 100).due = s.timer.clock ∧ s.inGroup 4 = true ∧ r.Awake ∧ r.firing.reports = [⟨3, 1, .fired, 0⟩] ∧
    s.firing.reports = [] ∧ (station .settled 100).watched = [] ∧ s.CuesInOrder := by
  unfold State.CuesInOrder
  decide

theorem test_witness_LinesFollowTheActionTable :
    let l : ActionLine := { state := .pulsing 255, activeLow := false, ending := false }
    1 ≤ 255 ∧ l.state = .pulsing 255 ∧ l.ending = false := by decide

theorem test_witness_PinsShowTheState :
    let s := emitting .beacon 0 HalfCell.start [] (holding .settled 4624)
    s.Awake ∧ (∃ f, s.line.tx = .sending f 0 HalfCell.start) ∧
    ∀ f n h, (station .ready 100).line.tx ≠ .sending f n h := by
  refine ⟨by decide, ⟨_, rfl⟩, ?_⟩
  intro f n h e
  cases e

theorem test_witness_DozeIsEnteredBetweenNeeds :
    let s := holding .settled 4662
    let r := station .ready 4662
    (s.Awake ∧ s.port.config = some settings ∧ settings.doze ≠ 0 ∧ s.power.fullListenBar = false ∧
      s.timer.due ≠ some .roundWrap ∧ s.hfRequest = false ∧ s.nextNeed = some 11658 ∧ s.ClockOk ∧
      s.needOf 0 = some 11658) ∧
    r.Awake ∧ r.hfRequest = false ∧ (windowed 4660 false false).hfRequest = true ∧ s.needOf 8 = none ∧
    (announcing .roundWrap r).timer.clock.round.toNat % 16 ≠ 0 := by
  unfold State.ClockOk
  decide +kernel

/-- A station whose oscillator starts, with the clock at 5:`phase`. -/
def rising (phase : Nat) : State := (holding .settled phase).updPower fun p => { p with state := .starting }

theorem test_witness_StationWakesAndTakesUpItsWindow :
    let s := (holding .settled 4480).updPower fun p => { p with state := .doze, wake := some ⟨5, 4480⟩ }
    (s.resetting = none ∧ s.power.state = .doze ∧ s.timer.counted = true ∧ s.power.wake = some s.timer.clock) ∧
    (∀ phase ∈ [4544, 4660, 4661, 16320, 436], (rising phase).resetting = none ∧
      (rising phase).power.state = .starting ∧ (rising phase).ClockOk ∧
      (rising phase).member.station.inCell = true) ∧
    (rising 4660).windowNow = some 9 ∧ (rising 4661).windowNow = none ∧ (rising 16320).windowNow = some 0 ∧
    (rising 436).windowNow = some 0 := by
  unfold State.ClockOk
  decide +kernel

theorem test_witness_TransactionsOnTheHostPort :
    let s := (station .ready 100).updPort fun p => { p with selected := true }
    let f := s.updPort fun p => { p with fetching := some [true] }
    s.resetting = none ∧ s.port.selected = true ∧ s.port.fetching = none ∧ (0x02 : Byte) ≠ 0xF0 ∧ [true].length < 8 ∧
    f.port.fetching = some [true] ∧ (station .ready 100).port.selected = false ∧
    { s with resetting := some .resetLine }.resetting ≠ none := by decide

theorem test_witness_RecordsAreJudgedByTheirForm :
    let s := taking (.unknown 0x0C) (station .ready 100)
    let m := taking (.malformed 0x02) (station .ready 100)
    (s.Awake ∧ s.port.taken = [.unknown 0x0C] ∧ m.Awake ∧ m.port.taken = [.malformed 0x02]) ∧
    0x0B < (0x0C : Byte).toNat ∧ 1 ≤ (0x02 : Byte).toNat ∧ (0x02 : Byte).toNat ≤ 0x0B ∧
    ∀ c : HostCommand, c.code = 0x02 → [1] ≠ BitVec.ofNat 8 c.params.length :: c.params := by
  refine ⟨by decide, by decide, by decide, by decide, ?_⟩
  intro c h e
  cases c <;> simp_all [HostCommand.code, HostCommand.params]

theorem test_witness_RecordsHaveTheirLayouts :
    (station .ready 100).status.clock.phase < 2 ^ 24 ∧ (cue3 100).due.phase < 2 ^ 24 ∧
    (EventRecord.mk .founded ⟨5, 1⟩).clock.phase < 2 ^ 24 := by decide

theorem test_witness_ConfigureOnceOnly :
    let s := taking (.command (.configure settings))
      { State.reset with power := { PowerController.reset with state := .awake } }
    let l := taking (.command (.configure settings)) (station .ready 100)
    (s.Executes (.configure settings) [] ∧ s.port.locked = false) ∧
    (l.Executes (.configure settings) [] ∧ l.port.locked = true) ∧
    (settings.id ≠ 0 ∧ settings.id ≠ 255 ∧ settings.lengthCode.toNat ≤ 3 ∧ settings.current.toNat ≤ 1) ∧
    { settings with id := 255 }.id = 255 ∧ 3 < { settings with lengthCode := 4 }.lengthCode.toNat := by
  unfold State.Executes
  decide

theorem test_witness_StartLeaveRestart :
    (∀ state ∈ [StationState.unconfigured, .ready, .survey, .tentative, .leaving],
      ((taking (.command .start) (station state 100)).Executes .start [] ∧
       (taking (.command .leave) (station state 100)).Executes .leave [] ∧
       (taking (.command .restart) (station state 100)).Executes .restart []) ∧
      (station state 100).member.station = state) := by
  unfold State.Executes
  decide

theorem test_witness_PostAndWithdrawAnswerByTheTable :
    (let p : PostParams := ⟨1, 1, 20, 4, 7, 100⟩
     let s := taking (.command (.post p)) (holding .settled 100)
     (s.Executes (.post p) [] ∧ s.member.station = .settled ∧ p.line.toNat = (1 : Fin 4).val ∧
      p.action.toNat = Action.pulse.code ∧ p.mask ≠ 0 ∧ p.width ≠ 0 ∧ p.duePhase.toNat < s.L) ∧
     instantDiff s.L ⟨7, 100⟩ (instantAddRounds s.timer.clock 2) = 0 ∧
     instantDiff s.L ⟨7, 99⟩ (instantAddRounds s.timer.clock 2) < 0 ∧
     instantDiff s.L ⟨4101, 100⟩ (instantAddRounds s.timer.clock 4096) = 0 ∧
     0 < instantDiff s.L ⟨4101, 101⟩ (instantAddRounds s.timer.clock 4096) ∧
     8 ≤ ownCount (List.replicate 8 { cue3 200 with own := true })) ∧
    let held : CueState → State := fun state => taking (.command (.withdraw 1))
      ((station .settled 100).updCues fun c => { c with entries := [{ cue3 200 with origin := 7, state := state }] })
    (∀ state ∈ [CueState.pending, .withdrawn, .retired .fired],
      (held state).Executes (.withdraw 1) [] ∧
      ((held state).recordReports.cues.entries.find? fun e => decide (e.origin = (held state).ownId ∧ e.seq = 1)) =
        some { cue3 200 with origin := 7, state := state }) := by
  unfold State.Executes
  decide

theorem test_witness_ReadsAreSnapshots :
    (∀ c ∈ [HostCommand.readStatus, .readCue 23, .readCue 24, .readPeer 27, .readPeer 28, .readSlots, .takeEvent],
      (taking (.command c) (station .ready 100)).Executes c []) ∧
    23 < (24 : Byte).toNat ∧ (23 : Byte).toNat ≤ 23 ∧ 27 < (28 : Byte).toNat ∧ (27 : Byte).toNat ≤ 27 ∧
    (station .ready 100).cues.entries.length ≤ (23 : Byte).toNat := by
  unfold State.Executes
  decide

/-- One entry at the clock, which was counted to, and one after it: settling leaves the second alone. -/
theorem test_witness_ReadsFindNothingDue :
    let s := (station .settled 100).updCues fun c => { c with entries := [cue3 100, { cue3 101 with seq := 2 }] }
    s.Awake ∧ s.ClockOk ∧ s.CuesInOrder ∧
    (∀ e ∈ s.watched, 0 ≤ instantDiff s.L e.due s.timer.clock ∧ (e.due = s.timer.clock → s.timer.counted = true)) ∧
    s.settleCues.cues.entries.map (fun e => e.state) = [.retired .fired, .pending] := by
  unfold State.ClockOk State.CuesInOrder
  decide

theorem test_witness_EventQueueAndTakenListStayBounded :
    State.reset.port.events.getLast? = some ⟨.resetDone .powerOn, ⟨0, 0⟩⟩ ∧ State.reset.port.events.length < 15 := by
  decide

/-- The invariants hold of a SETTLED station that is taken a step, too. -/
theorem test_witness_Invariants :
    let s := { holding .settled 100 with pending := [.lfPeriod [] none] }
    (s.ClockOk ∧ s.ConfigOk ∧ s.LfsrOk ∧ s.PortOk ∧ s.CuesOk ∧ s.LinesOk ∧ s.CuesInOrder ∧ s.CuesNear ∧
      s.SilentBeforeConfigure ∧ s.member.SlotsOk ∧ s.member.PeersOk ∧ s.sync.Ok ∧ s.member.CountsOk) ∧
    ∃ t, step s = .next t := by
  refine ⟨⟨by unfold State.ClockOk; decide, ?_, by unfold State.LfsrOk; decide, ?_, ?_, ?_, ?_, ?_, ?_, ?_,
    by unfold Membership.PeersOk; decide, by unfold SyncUnit.Ok; decide, by unfold Membership.CountsOk; decide⟩,
    _, rfl⟩
  · exact ⟨rfl, by decide, by decide, rfl⟩
  · refine ⟨⟨by decide, by decide, by decide, ?_⟩, by decide⟩
    intro e h
    cases h
  · refine ⟨by decide, by decide, ?_, by decide⟩
    intro e h
    cases h
  · refine ⟨?_, ?_, ?_⟩
    · intro n r h
      revert h
      fin_cases n <;> simp [holding, station, State.reset, FiringUnit.reset, ActionLine.reset, State.updMember]
    · intro e h
      cases h
    · intro i h
      cases h
  · refine ⟨List.Pairwise.nil, ?_, ?_⟩ <;>
    · intro e h
      cases h
  · intro e h
    cases h
  · intro h
    cases h
  · refine ⟨by decide, by decide, by decide, ?_, ?_⟩
    · intro k h
      cases h
    · intro c h
      cases h

/-- The premises of the cue table's order hold with a table in it. -/
theorem test_witness_CueTableStaysInOrder :
    let s := (station .settled 100).updCues fun c => { c with entries := [cue3 100, cue3 200] }
    s.CuesInOrder ∧ s.CuesNear := by
  unfold State.CuesInOrder State.CuesNear
  decide

end Sys2Proof.Tests
end

section
/-! PROOFS. START, LEAVE and RESTART (R71, R88, R91, R147, R167): entry into READY after what has fallen due is
settled, and the three commands by the station state. -/

namespace Sys2Proof.Machine.Joining

/-! ## Entry into READY (R33, R50, R69, R91, R97, R125, R147) -/

/-- Neither the end of a pulse nor an action touches a line's polarity (R138). -/
theorem endPulses_activeLow (n : Fin 4) (s : State) :
    (s.endPulses.firing.lines[n]).activeLow = (s.firing.lines[n]).activeLow := by
  have keeps (l : ActionLine) : l.endPulse.activeLow = l.activeLow := by
    unfold ActionLine.endPulse; split <;> rfl
  simp [State.endPulses, FiringUnit.mapLines, keeps]

theorem dealWith_activeLow (n : Fin 4) (e : CueEntry) (lateness : Nat) (s : State) :
    ((s.dealWith e lateness).firing.lines[n]).activeLow = (s.firing.lines[n]).activeLow := by
  simp only [State.dealWith, State.wakeFor_frame, State.updFiring_firing]
  split
  · by_cases hn : e.line = n
    · subst hn; simp [FiringUnit.updLine]
    · have hv : e.line.val ≠ n.val := fun h => hn (Fin.ext h)
      simp [FiringUnit.updLine, Vector.getElem_set_ne, hv]
  · rfl

theorem settleCues_activeLow (n : Fin 4) (s : State) :
    (s.settleCues.firing.lines[n]).activeLow = (s.firing.lines[n]).activeLow := by
  unfold State.settleCues State.fallDue
  rw [recordReports_lines]
  split
  · split
    · rfl
    · rw [foldl_field (fun s : State => (s.firing.lines[n]).activeLow) fun s x => dealWith_activeLow n x 0 s,
        endPulses_activeLow]
  · rfl

/-- Settling appends CUE_FIRED records and leaves the rest of the port (R120). -/
theorem settleCues_port (s : State) :
    s.settleCues.port = { s.port with events := s.settleCues.port.events } := by
  unfold State.settleCues
  rw [recordReports_eq]
  simp

theorem enterReady_lines (n : Fin 4) (s : State) :
    s.enterReady.firing.lines[n] = { s.firing.lines[n] with state := .idle, ending := false } := by
  have hlow := settleCues_activeLow n s
  simp only [State.enterReady, FiringUnit.mapLines, ActionLine.toIdle, State.updPower_firing, State.updFiring_firing]
  simp_all [State.resetTables]

theorem entersReady_enterReady {s : State} (h : s.power.state ≠ .doze) : s.EntersReady s.enterReady := by
  refine ⟨?line, ?frame, ?member, ?cues, ?reports, fun n => enterReady_lines n s, ?power, by simp, by simp, by simp⟩
  case line => simp [State.enterReady, State.resetTables, LineUnit.cutOff]
  case frame => simp [State.enterReady, State.resetTables]
  case member => simp [State.enterReady, State.resetTables, Membership.clearItems, Membership.reset]
  case cues => simp [State.enterReady, State.resetTables]
  case reports => simp [State.enterReady, State.resetTables, FiringUnit.mapLines]
  case power => simp [State.enterReady, settleCues_power h]

/-- An event queued on the way leaves all that entry into READY is about. -/
theorem entersReady_queue {s t : State} (h : s.EntersReady t) (kind : EventKind) : s.EntersReady (t.queue kind) := by
  unfold State.EntersReady at *
  simpa using h

/-- The way to READY with an event at its end: LEFT or RESTARTED is queued behind what settling has recorded. -/
theorem enterReady_queue {s : State} (h : s.power.state ≠ .doze) (kind : EventKind) :
    s.EntersReady (s.enterReady.queue kind) ∧ (s.enterReady.queue kind).sync = SyncUnit.reset ∧
    (s.enterReady.queue kind).timer = s.timer ∧
    (s.enterReady.queue kind).port = { s.port with
      events := appendEvent s.settleCues.port.events ⟨kind, s.timer.clock⟩ } := by
  refine ⟨entersReady_queue (entersReady_enterReady h) kind, ?_, by simp, ?_⟩
  · simp [State.enterReady]
  · have hport : s.enterReady.port = s.settleCues.port := by simp [State.enterReady, State.resetTables]
    have htimer : s.enterReady.timer = s.timer := by simp
    rw [State.queue, State.updPort_port, hport, settleCues_port, htimer]

/-! ## The three commands -/

theorem startSurvey_eq (s : State) : s.startSurvey =
    { s with
      member := { s.member.clearItems with station := .survey, surveyEntry := some s.timer.clock }
      line := { s.line with rx := match s.line.rx with
        | .disarmed => .armed []
        | other => other } } := by
  obtain ⟨_, ⟨_, rx, _, _, _, _, _⟩, _, _, _, _, _, _, _, _, _, _⟩ := s
  cases rx <;> rfl

theorem exec_start {s : State} {rest : List TakenRecord} (h : s.Executes .start rest) :
    exec .start s = .next (answer 0x02 rest (runStart s.recordReports)) := by
  show execStart s = _
  unfold execStart
  rw [oldestTaken_of h.1 h.2]
  rfl

theorem exec_leave {s : State} {rest : List TakenRecord} (h : s.Executes .leave rest) :
    exec .leave s = .next (answer 0x03 rest (runLeave s.recordReports)) := by
  show execLeave s = _
  unfold execLeave
  rw [oldestTaken_of h.1 h.2]
  rfl

theorem exec_restart {s : State} {rest : List TakenRecord} (h : s.Executes .restart rest) :
    exec .restart s = .next (answer 0x04 rest (runRestart s.recordReports)) := by
  show execRestart s = _
  unfold execRestart
  rw [oldestTaken_of h.1 h.2]
  rfl

theorem runLeave_of_joining {s : State}
    (h : s.member.station = .survey ∨ s.member.station = .claiming ∨ s.member.station = .backoff) :
    runLeave s = (s.enterReady.queue .left, .ok, .none) := by
  unfold runLeave
  rcases h with h | h | h <;> rw [h] <;> rfl

theorem runLeave_of_holding {s : State} (h : s.member.station = .tentative ∨ s.member.station = .settled) :
    runLeave s = ({ s with member := { s.member.clearItems with
      station := .leaving, ownSlot := s.member.ownSlot } }, .ok, .none) := by
  unfold runLeave
  rcases h with h | h <;> rw [h] <;> rfl

theorem runLeave_of_outside {s : State}
    (h : s.member.station = .unconfigured ∨ s.member.station = .ready ∨ s.member.station = .leaving) :
    runLeave s = (s, .wrongState, .none) := by
  unfold runLeave
  rcases h with h | h | h <;> rw [h]

/-- Before a command of the host executes the held reports are recorded, which keeps the station AWAKE. -/
theorem recordReports_not_doze {s : State} (h : s.Awake) : s.recordReports.power.state ≠ .doze := by
  simp [h.2]

/-- Settles O51: each command by the case of the station state in which it is taken or refused, the way to READY by
`enterReady_queue`. -/
theorem startLeaveRestart : Obligations.StartLeaveRestart := by
  refine ⟨fun s rest h => ⟨fun hs => ?_, fun hs => ?_⟩,
    fun s rest h => ⟨fun hs => ?_, fun hs => ?_, fun hs => ?_⟩,
    fun s rest h => ⟨fun hs => ?_, fun hs => ?_⟩⟩
  · rw [exec_start h, runStart, if_pos (by simpa using hs), startSurvey_eq]
    simp only [State.recordReports_frame]
    rfl
  · rw [exec_start h, runStart, if_neg (by simpa using hs)]
    rfl
  · refine ⟨_, by rw [exec_leave h, runLeave_of_joining (by simpa using hs)]; rfl, ?_⟩
    simpa using enterReady_queue (recordReports_not_doze h.1) .left
  · rw [exec_leave h, runLeave_of_holding (by simpa using hs)]
    rfl
  · rw [exec_leave h, runLeave_of_outside (by simpa using hs)]
    rfl
  · refine ⟨_, by rw [exec_restart h, runRestart, if_neg (by simpa using hs)]; rfl, ?_⟩
    simpa using enterReady_queue (recordReports_not_doze h.1) .restarted
  · rw [exec_restart h, runRestart, if_pos (by simpa using hs)]
    rfl

end Sys2Proof.Machine.Joining
end

section
/-! PROOFS. The tie of R81: what noting a native claim does, what entering CLAIMING does, and who keeps the slot. -/

namespace Sys2Proof.Machine.Joining

/-! ## The slot and peer tables under a claim (R56, R58 to R60, R62) -/

theorem insertPeer_eq (e : PeerEntry) (l : List PeerEntry) :
    insertPeer e l = l.takeWhile (fun q => decide (q.id.toNat ≤ e.id.toNat)) ++ e ::
      l.dropWhile fun q => decide (q.id.toNat ≤ e.id.toNat) := by
  induction l with
  | nil => rfl
  | cons p rest ih =>
    unfold insertPeer
    by_cases h : e.id.toNat < p.id.toNat
    · simp [h]
    · simp [h, Nat.not_lt.mp h, ih]

theorem mem_insertPeer {e p : PeerEntry} {l : List PeerEntry} : p ∈ insertPeer e l ↔ p = e ∨ p ∈ l := by
  induction l with
  | nil => simp [insertPeer]
  | cons q rest ih =>
    unfold insertPeer
    split
    · simp
    · simp [ih, or_left_comm]

/-- Leaving the giver out changes nothing where it beacons nowhere. -/
theorem heir_eq_passedOn {m : Membership} {k : Slot} {id : Byte}
    (h : ∀ p ∈ m.peers, p.id = id → p.beaconsIn k = false) : m.heir k (some id) = passedOn m.peers k := by
  have hfind : (m.peers.find? fun p => p.beaconsIn k && decide (some p.id ≠ some id)) =
      m.peers.find? fun p => p.beaconsIn k := by
    apply List.find?_congr
    intro p hp
    by_cases hid : p.id = id
    · simp [h p hp hid]
    · simp [hid]
  cases hf : m.peers.find? fun p => p.beaconsIn k with
  | none => simp only [Membership.heir, passedOn, hfind, hf]
  | some q => simp only [Membership.heir, passedOn, hfind, hf]

theorem beaconsIn_of_no_slot {p : PeerEntry} (h : p.slot = none) (k : Slot) : p.beaconsIn k = false := by
  simp [PeerEntry.beaconsIn, h]

/-- The entry of a station first heard claiming (R60, R62). -/
def newClaimant (sender : Byte) (round : Round) : PeerEntry :=
  { id := sender, slot := none, state := .claimant, heard := round, missed := 0, report := none }

/-- What a claim makes of its sender's entry (R62). -/
def claiming (round : Round) (q : PeerEntry) : PeerEntry :=
  { q with slot := none, state := .claimant, heard := round }

/-- The peer table once a claim of `sender` is noted: its entry changed, or a new one where there is room (R60, R62). -/
def peersClaimed (m : Membership) (sender : Byte) (round : Round) : List PeerEntry :=
  if m.peer? sender ≠ none then m.peers.map fun q => if q.id = sender then claiming round q else q
  else if m.peers.length < 28 then insertPeer (newClaimant sender round) m.peers
  else m.peers

/-- The event queue once a claim of `sender` is noted: PEER_NEW for a new entry (R60). -/
def eventsClaimed (s : State) (sender : Byte) : List EventRecord :=
  if s.member.peer? sender = none ∧ s.member.peers.length < 28 then
    appendEvent s.port.events ⟨.peerNew sender none, s.timer.clock⟩
  else s.port.events

theorem peer?_eq_none {m : Membership} {id : Byte} : m.peer? id = none ↔ ∀ p ∈ m.peers, p.id ≠ id := by
  simp [Membership.peer?]

theorem peerClaim_eq (sender : Byte) (round : Round) (s : State) :
    s.peerClaim sender round = { s with
      member := { s.member with peers := peersClaimed s.member sender round }.giveUp sender none
      port := { s.port with events := eventsClaimed s sender } } := by
  unfold State.peerClaim State.addPeer peersClaimed eventsClaimed
  cases known : s.member.peer? sender with
  | some q =>
    simp only [ne_eq, reduceCtorEq, not_false_eq_true, if_true, false_and, if_false]
    rfl
  | none =>
    by_cases room : s.member.peers.length < 28
    · simp only [ne_eq, not_true_eq_false, if_false, room, if_true, and_self]
      rfl
    · simp only [ne_eq, not_true_eq_false, if_false, room, and_false]
      rfl

/-- Once its claim is noted the claimant beacons in no slot. -/
theorem peersClaimed_silent {m : Membership} {sender : Byte} {round : Round} (k : Slot) {p : PeerEntry}
    (hp : p ∈ peersClaimed m sender round) (hid : p.id = sender) : p.beaconsIn k = false := by
  unfold peersClaimed at hp
  split at hp
  · obtain ⟨q, -, rfl⟩ := List.mem_map.mp hp
    by_cases hq : q.id = sender
    · rw [if_pos hq]
      exact beaconsIn_of_no_slot rfl k
    · rw [if_neg hq] at hid
      exact absurd hid hq
  · rename_i unknown
    have others := peer?_eq_none.mp (not_not.mp unknown)
    split at hp
    · rcases mem_insertPeer.mp hp with rfl | hp
      · exact beaconsIn_of_no_slot rfl k
      · exact absurd hid (others p hp)
    · exact absurd hid (others p hp)

/-- The claim's effect on the slot table, the slots its sender gives up not counted (R56). -/
theorem kind_noteClaim (m : Membership) (target : Slot) (sender : Byte) (round : Round) (j : Slot) :
    (m.noteClaim target sender round).kind j =
      match m.kind j with
      | .vacant => if j = target then .claimed sender round else .vacant
      | .claimed h c =>
        if j = target then if sender.toNat < h.toNat then .claimed sender round else .claimed h c
        else if h = sender then .vacant else .claimed h c
      | other => other := by
  unfold Membership.noteClaim
  rw [kind_mapKinds]
  by_cases hj : j = target
  · simp only [if_pos hj]
    cases m.kind j <;> rfl
  · simp only [if_neg hj]
    cases m.kind j <;> rfl

@[simp] theorem peer?_noteClaim (m : Membership) (target : Slot) (sender : Byte) (round : Round) (id : Byte) :
    (m.noteClaim target sender round).peer? id = m.peer? id := by
  simp [Membership.peer?]

@[simp] theorem peersClaimed_noteClaim (m : Membership) (target : Slot) (sender : Byte) (round : Round) :
    peersClaimed (m.noteClaim target sender round) sender round = peersClaimed m sender round := by
  simp [peersClaimed]

theorem kind_peerClaim (sender : Byte) (round : Round) (s : State) (j : Slot) :
    (s.peerClaim sender round).member.kind j =
      if s.member.kind j = .occupied sender then passedOn (s.peerClaim sender round).member.peers j
      else s.member.kind j := by
  rw [peerClaim_eq]
  simp only [Membership.giveUp_frame]
  rw [kind_giveUp, heir_eq_passedOn fun p hp hid => peersClaimed_silent j hp hid]
  show (if s.member.kind j = _ ∧ some j ≠ none then _ else s.member.kind j) = _
  simp

/-- What a native claim does to the two tables, before the tie is looked at (R56, R58, R60, R62). -/
theorem notesClaim_peerClaim (s : State) (sender : Byte) (round : Round) (target : Slot) :
    s.NotesClaim ((s.updMember fun m => m.noteClaim target sender round).peerClaim sender round)
      sender round target := by
  constructor
  · rw [peerClaim_eq]
    refine ⟨?others, ?member, fun j => ?outcome, ?peers, ?port⟩
    case others => simp
    case member => simp [Membership.giveUp, Membership.mapKinds, Membership.noteClaim]
    case outcome => simp [Membership.giveUp, Membership.mapKinds, Membership.noteClaim]
    case peers =>
      simp only [Membership.giveUp_frame, State.updMember_member, peersClaimed_noteClaim]
      simp only [peersClaimed, insertPeer_eq]
      rfl
    case port => simp [eventsClaimed]
  · intro j
    rw [kind_peerClaim, State.updMember_member, kind_noteClaim]
    cases s.member.kind j with
    | openSlot => rfl
    | own => rfl
    | occupied h => simp
    | vacant => by_cases hj : j = target <;> simp [hj]
    | claimed h c =>
      by_cases hj : j = target
      · by_cases hlow : sender.toNat < h.toNat <;> simp [hj, hlow]
      · by_cases hh : h = sender <;> simp [hj, hh]

/-! ## Entering CLAIMING (R19, R41, R76) -/

theorem withdrawFrame_eq (kind : FrameKind) (s : State) : s.withdrawFrame kind = s.unframed kind := by
  obtain ⟨_, ⟨tx, _, _, _, _, _, _⟩, _, _, _, _, _, _, _, _, _, _⟩ := s
  cases tx with
  | idle => rfl
  | sending frame halves half => rfl
  | pending frame =>
    by_cases h : frame.kind = kind <;>
      simp [State.withdrawFrame, State.unframed, State.updLine, State.updFrame, h]

theorem byWindow_byWindow (l : LineUnit) : l.byWindow.byWindow = l.byWindow := by
  obtain ⟨_, rx, window, _, _, _, _⟩ := l
  cases rx <;> cases window <;> rfl

/-- Outside SURVEY the receiver follows the window alone (R19, R20). -/
theorem rearm_eq_byWindow {s : State} (h : s.member.station ≠ .survey) :
    s.rearm = { s with line := s.line.byWindow } := by
  have hlistens : s.listens = s.line.window.isSome := by simp [State.listens, h]
  obtain ⟨_, ⟨_, rx, window, _, _, _, _⟩, _, _, _, _, _, _, _, _, _, _⟩ := s
  cases rx <;> cases window <;> simp_all [State.rearm, State.restingRx, LineUnit.byWindow, State.updLine]

theorem enterBackoff_eq (n : Nat) (s : State) : s.enterBackoff n =
    { s with
      member := { s.member.clearItems with station := .backoff, backoff := n }
      line := s.line.byWindow } := by
  unfold State.enterBackoff
  rw [rearm_eq_byWindow (by simp)]
  rfl

/-- Entry into CLAIMING: a VACANT claimable slot is drawn, or there is none and BACKOFF follows at once. -/
theorem enterClaiming_cases (s : State) :
    (∃ k ∈ s.member.vacant,
      s.member.vacant[(lfsrDraw s.member.lfsr).toNat % s.member.vacant.length]? = some k ∧
      s.enterClaiming = { s with
        member := { s.member.clearItems with
          station := .claiming, lfsr := lfsrDraw s.member.lfsr, target := some k }
        line := s.line.byWindow }) ∨
    (s.member.vacant = [] ∧
      s.enterClaiming = { s with
        member := { s.member.clearItems with station := .backoff, backoff := 8 }
        port := { s.port with events := appendEvent s.port.events ⟨.cellFull, s.timer.clock⟩ }
        line := s.line.byWindow }) := by
  unfold State.enterClaiming
  rw [rearm_eq_byWindow (by simp)]
  rcases drawTarget_cases
      { s with member := { s.member.clearItems with station := .claiming }, line := s.line.byWindow } with
    ⟨k, hdrawn, hmem, heq⟩ | ⟨hnone, heq⟩
  · exact Or.inl ⟨k, hmem, hdrawn, heq⟩
  · refine Or.inr ⟨hnone, heq.trans ?_⟩
    rw [enterBackoff_eq]
    simp [State.queue, State.updPort, Membership.clearItems, byWindow_byWindow]

theorem entersClaiming_enterClaiming (s : State) : s.EntersClaiming s.enterClaiming := by
  rcases enterClaiming_cases s with ⟨k, hmem, hdrawn, heq⟩ | ⟨hnone, heq⟩ <;> rw [heq]
  · obtain ⟨hclaimable, hvacant⟩ := mem_vacant.mp hmem
    exact ⟨rfl, Or.inl ⟨k, hdrawn, hclaimable, hvacant, rfl, rfl⟩⟩
  · refine ⟨rfl, Or.inr ⟨fun k hclaimable hvacant => ?_, rfl, rfl⟩⟩
    have hmem : k ∈ s.member.vacant := mem_vacant.mpr ⟨hclaimable, hvacant⟩
    simp [hnone] at hmem

theorem watchTarget_of_not_claiming {s : State} (h : s.member.station ≠ .claiming) : s.watchTarget = s := by
  unfold State.watchTarget
  split
  · contradiction
  · rfl

theorem watchTarget_of_vacant {s : State} {k : Slot} (ht : s.member.target = some k)
    (hk : s.member.kind k = .vacant) : s.watchTarget = s := by
  unfold State.watchTarget
  rw [ht]
  split
  · simp_all [targetLost]
  · rfl

/-- A target just drawn is VACANT, so entering CLAIMING leaves nothing for R77 to redraw. -/
theorem watchTarget_enterClaiming (s : State) : s.enterClaiming.watchTarget = s.enterClaiming := by
  rcases enterClaiming_cases s with ⟨k, hmem, -, heq⟩ | ⟨-, heq⟩ <;> rw [heq]
  · exact watchTarget_of_vacant rfl (mem_vacant.mp hmem).2
  · exact watchTarget_of_not_claiming (by simp)

/-! ## The tie of R81 -/

theorem setKind_release (m : Membership) (k : Slot) (giver : Option Byte) (kind : SlotKind) :
    (m.release k giver).setKind k kind = m.setKind k kind := by
  simp [Membership.release, Membership.setKind]

/-- The tie as the model tests it is the tie of the statement (R81). -/
theorem lowerIdTie_of_loses {s : State} {sender : Byte} {round : Round} {own : Slot}
    (h : s.LosesTheTie sender own) : s.lowerIdTie sender round own =
      State.enterClaiming
        { s.unframed .beacon with member := s.member.setKind own (.claimed sender round) } := by
  unfold State.lowerIdTie
  refine (if_pos h).trans ?_
  simp only [setKind_release]
  rw [withdrawFrame_eq]
  rfl

theorem lowerIdTie_of_not {s : State} {sender : Byte} {round : Round} {own : Slot}
    (h : ¬ s.LosesTheTie sender own) : s.lowerIdTie sender round own = s := by
  unfold State.lowerIdTie
  exact if_neg h

/-- Noting a claim touches nothing that the tie is decided by. -/
theorem losesTheTie_of_notesClaim {s u : State} {sender : Byte} {round : Round} {target : Slot}
    (h : s.NotesClaim u sender round target) : u.LosesTheTie sender target ↔ s.LosesTheTie sender target := by
  obtain ⟨⟨hstate, hmember, -, -, hport⟩, -⟩ := h
  unfold State.LosesTheTie State.ownId
  rw [hstate]
  dsimp only
  rw [hmember, hport]

theorem losesTheTie_heardClean (s : State) (r : WaitingReception) (rest : List WaitingReception) (sender : Byte)
    (target : Slot) : (s.heardClean r rest).LosesTheTie sender target ↔ s.LosesTheTie sender target := Iff.rfl

theorem enterClaiming_items (s : State) :
    s.enterClaiming.member.ownSlot = none ∧ s.enterClaiming.member.tries = 0 := by
  rcases enterClaiming_cases s with ⟨k, -, -, heq⟩ | ⟨-, heq⟩ <;> rw [heq] <;> exact ⟨rfl, rfl⟩

theorem kind_enterClaiming (s : State) (k : Slot) : s.enterClaiming.member.kind k = s.member.kind k := by
  unfold Membership.kind
  rw [enterClaiming_slots]

theorem exec_parseReception {s : State} {r : WaitingReception} {rest : List WaitingReception} (h : s.Parses r rest) :
    exec .parseReception s = .next ((s.updFrame fun u => { u with waiting := rest }).takeReception r) := by
  obtain ⟨hawake, hitems, hwaiting⟩ := h
  show execParseReception s = _
  unfold execParseReception State.parseNext
  rw [if_pos hawake, hitems, hwaiting]

/-- A native claim reaches the membership controller behind its CLEAN outcome (R44, R46, R52). -/
theorem exec_parseReception_claim {s : State} {r : WaitingReception} {rest : List WaitingReception} {sender : Byte}
    {round : Round} {n : Fin 16} {target : Slot} (h : s.Parses r rest)
    (hread : readFrame s.L s.ownId r.condition r.bytes = some (.claim sender round n target))
    (hearly : -32 ≤ s.offsetOf r (.claim sender round n target))
    (hlate : s.offsetOf r (.claim sender round n target) ≤ 32) :
    exec .parseReception s = .next ((s.heardClean r rest).nativeClaim sender round target) := by
  have hnative : isNative (instantDiff s.L r.arrival ((Frame.claim sender round n target).nominal s.timer.lengthCode)) =
      true := decide_eq_true ⟨hearly, hlate⟩
  rw [exec_parseReception h]
  unfold State.takeReception
  simp only [State.L, State.ownId, State.updFrame_timer, State.updFrame_port] at hread hnative ⊢
  simp only [hread, hnative, if_true]
  rfl

/-- Settles O35: the claim is noted, then the tie decides. The slot it takes is CLAIMED, so the target drawn behind it
is another one and R77 finds nothing to redraw. -/
theorem lowerIdWinsTheTie : Obligations.LowerIdWinsTheTie := by
  intro s r rest sender round n own hparses hread hearly hlate hstation hown hkind
  have hexec := exec_parseReception_claim hparses hread hearly hlate
  have hnotes := notesClaim_peerClaim (s.heardClean r rest) sender round own
  dsimp only [State.nativeClaim] at hexec
  generalize ((s.heardClean r rest).updMember fun m => m.noteClaim own sender round).peerClaim sender round = u
    at hexec hnotes
  have htie : u.LosesTheTie sender own ↔ s.LosesTheTie sender own :=
    (losesTheTie_of_notesClaim hnotes).trans (losesTheTie_heardClean ..)
  refine ⟨_, u, hexec, hnotes, fun h => ?_, fun h => ?_⟩
  · rw [lowerIdTie_of_loses (htie.mpr h), watchTarget_enterClaiming]
    refine ⟨entersClaiming_enterClaiming _, ?_, enterClaiming_items _⟩
    rw [kind_enterClaiming, kind_setKind, if_pos rfl]
  · obtain ⟨⟨-, hmember, -⟩, hslots⟩ := hnotes
    have hstays : u.member.station = .tentative := by rw [hmember]; exact hstation
    have hkept : u.member.ownSlot = some own := by rw [hmember]; exact hown
    have hown' : (s.heardClean r rest).member.kind own = .own := (kind_record ..).trans hkind
    rw [lowerIdTie_of_not (mt htie.mp h), watchTarget_of_not_claiming (by simp [hstays])]
    exact ⟨rfl, by rw [hslots own, hown'], hstays, hkept⟩

end Sys2Proof.Machine.Joining
end

section
/-! PROOFS. The sync unit's samples and the correction it makes of them (R93, R95). -/

namespace Sys2Proof.Machine.SharedTime

/-! ## Setting aside a largest and a smallest offset (R95) -/

theorem trimmed_of_short {l : List Int} (h : l.length ≤ 3) : trimmed l = l := by
  cases l with
  | nil => rfl
  | cons a rest => exact if_pos (Nat.lt_succ_of_le h)

/-- The list after one of its largest is set aside still holds one of its smallest: where the two are equal, every
member is that value and there is more than one. -/
theorem smallest_mem_erase_largest {l : List Int} {hi lo : Int} (hlength : 2 ≤ l.length) (hhi : hi ∈ l)
    (hlo : lo ∈ l) (hle : ∀ x ∈ l, x ≤ hi) (hge : ∀ x ∈ l, lo ≤ x) : lo ∈ l.erase hi := by
  by_cases heq : lo = hi
  · subst heq
    have hpos : 0 < (l.erase lo).length := by rw [List.length_erase_of_mem hhi]; omega
    obtain ⟨x, hx⟩ := List.exists_mem_of_length_pos hpos
    have hxl : x ∈ l := List.mem_of_mem_erase hx
    exact le_antisymm (hle x hxl) (hge x hxl) ▸ hx
  · exact (List.mem_erase_of_ne heq).mpr hlo

theorem trimmed_of_long {l : List Int} {hi lo : Int} (hlength : 4 ≤ l.length) (hhi : hi ∈ l) (hlo : lo ∈ l)
    (hle : ∀ x ∈ l, x ≤ hi) (hge : ∀ x ∈ l, lo ≤ x) : trimmed l = (l.erase hi).erase lo := by
  cases l with
  | nil => cases hhi
  | cons a rest =>
    have hmax : rest.foldl max a = hi :=
      Option.some.inj (List.max?_cons'.symm.trans (List.max?_eq_some_iff.mpr ⟨hhi, hle⟩))
    have hmin : rest.foldl min a = lo :=
      Option.some.inj (List.min?_cons'.symm.trans (List.min?_eq_some_iff.mpr ⟨hlo, hge⟩))
    rw [← hmax, ← hmin]
    exact if_neg (Nat.not_lt.mpr hlength)

/-! ## The correction (R95) -/

theorem correctionOf_of_short {l : List Int} (h : l.length ≤ 3) :
    correctionOf l = max (-8) (min 8 (-(l.sum.tdiv l.length))) := by
  unfold correctionOf
  rw [trimmed_of_short h]

theorem correctionOf_of_long {l : List Int} {hi lo : Int} (hlength : 4 ≤ l.length) (hhi : hi ∈ l) (hlo : lo ∈ l)
    (hle : ∀ x ∈ l, x ≤ hi) (hge : ∀ x ∈ l, lo ≤ x) :
    correctionOf l = max (-8) (min 8 (-((l.sum - hi - lo).tdiv ((l.length : Int) - 2)))) := by
  have hlo' := smallest_mem_erase_largest (by omega) hhi hlo hle hge
  have hsum : ((l.erase hi).erase lo).sum = l.sum - hi - lo := by
    have h1 := List.sum_erase hhi
    have h2 := List.sum_erase hlo'
    omega
  have hcount : (((l.erase hi).erase lo).length : Int) = (l.length : Int) - 2 := by
    rw [List.length_erase_of_mem hlo', List.length_erase_of_mem hhi]
    omega
  simp only [correctionOf, trimmed_of_long hlength hhi hlo hle hge, hsum, hcount]

/-- Sum, length, largest and smallest are all that the correction depends on. -/
theorem correctionOf_perm {l m : List Int} (h : l.Perm m) : correctionOf l = correctionOf m := by
  have hlength := h.length_eq
  by_cases hshort : l.length ≤ 3
  · rw [correctionOf_of_short hshort, correctionOf_of_short (hlength ▸ hshort), h.sum_eq, hlength]
  · have hlong : 4 ≤ l.length := by omega
    have hne : l ≠ [] := List.ne_nil_of_length_pos (by omega)
    obtain ⟨hi, hmax⟩ := Option.ne_none_iff_exists'.mp (mt List.max?_eq_none_iff.mp hne)
    obtain ⟨lo, hmin⟩ := Option.ne_none_iff_exists'.mp (mt List.min?_eq_none_iff.mp hne)
    obtain ⟨hhi, hle⟩ := List.max?_eq_some_iff.mp hmax
    obtain ⟨hlo, hge⟩ := List.min?_eq_some_iff.mp hmin
    rw [correctionOf_of_long hlong hhi hlo hle hge,
      correctionOf_of_long (hlength ▸ hlong) (h.mem_iff.mp hhi) (h.mem_iff.mp hlo)
        (fun x hx => hle x (h.mem_iff.mpr hx)) (fun x hx => hge x (h.mem_iff.mpr hx)), h.sum_eq, hlength]

/-! ## The list of samples (R93) -/

theorem take_of_closed {u : SyncUnit} {round : Round} (h : u.closedRound = some round) (id : Byte) (offset : Int) :
    u.take id offset round = u := if_pos h

theorem take_of_otherRound {u : SyncUnit} {round : Round} (hopen : u.closedRound ≠ some round)
    (hlist : u.listRound ≠ some round) (id : Byte) (offset : Int) :
    u.take id offset round =
      { u with listRound := some round, samples := [{ id := id, offset := offset }] } := by
  simp [SyncUnit.take, hopen, hlist]

theorem take_of_listRound {u : SyncUnit} {round : Round} (hopen : u.closedRound ≠ some round)
    (hlist : u.listRound = some round) (id : Byte) (offset : Int) :
    u.take id offset round = { u with
      samples := if ∃ x ∈ u.samples, x.id = id then
          u.samples.map (fun x => if x.id = id then { x with offset := offset } else x)
        else if u.samples.length < 28 then u.samples ++ [{ id := id, offset := offset }]
        else u.samples } := by
  obtain ⟨samples, listRound, closedRound, lastCorrection⟩ := u
  subst hlist
  have hheld : (samples.any fun x => decide (x.id = id)) = true ↔ ∃ x ∈ samples, x.id = id := by simp
  simp only [SyncUnit.take, if_neg hopen, if_true, hheld]
  split
  · rfl
  · split <;> rfl

/-- Settles O17: the correction by the number of samples, the list by the round of the new one. -/
theorem samplesGiveTheCorrection : Obligations.SamplesGiveTheCorrection :=
  ⟨⟨rfl, fun _ _ hshort => correctionOf_of_short hshort,
      fun _ _ _ hlong hhi hlo hle hge => correctionOf_of_long hlong hhi hlo hle hge, fun _ _ => correctionOf_perm⟩,
    fun _ id offset _ => ⟨fun hclosed => take_of_closed hclosed id offset,
      fun hopen hlist => take_of_otherRound hopen hlist id offset,
      fun hopen hlist => take_of_listRound hopen hlist id offset⟩⟩

end Sys2Proof.Machine.SharedTime
end

section
/-! PROOFS. The cues a correction of the seam point passes over: what dealing with a list of entries does to reports
and lines, and the seam point in either order of its two units (R98, R140, R141, R143, R144). -/

namespace Sys2Proof.Machine.SharedTime

/-! ## Dealing with entries (R140, R141, R143) -/

/-- An entry dealt with is FIRED: it is PENDING and its group matches (R140). -/
def fires (s : State) (e : CueEntry) : Bool := decide (e.state = .pending) && s.inGroup e.mask

/-- The report of an entry dealt with (R120, R140). -/
def reportOf (s : State) (e : CueEntry) (lateness : Nat) : FiringReport :=
  { origin := e.origin, seq := e.seq
    outcome := if e.state = .withdrawn then .withdrawn else if fires s e then .fired else .skipped
    lateness := lateness }

/-- The group test reads the configuration only. -/
theorem inGroup_congr {s t : State} (h : t.port.config = s.port.config) : t.inGroup = s.inGroup := by
  funext mask
  unfold State.inGroup
  rw [h]

/-- Dealing with an entry changes nothing by which another one fires. -/
@[simp] theorem fires_dealWith (e : CueEntry) (lateness : Nat) (s : State) :
    fires (s.dealWith e lateness) = fires s := by
  have h : (s.dealWith e lateness).inGroup = s.inGroup := inGroup_congr (by simp)
  unfold fires
  rw [h]

@[simp] theorem reportOf_dealWith (e : CueEntry) (lateness : Nat) (s : State) :
    reportOf (s.dealWith e lateness) = reportOf s := by
  unfold reportOf
  rw [fires_dealWith]

theorem wakeFor_firing (cause : WakeCause) (s : State) : (s.wakeFor cause).firing = s.firing := by simp

theorem dealWith_firing (e : CueEntry) (lateness : Nat) (s : State) :
    (s.dealWith e lateness).firing =
      { lines := (if fires s e then s.firing.updLine e.line fun l =>
            { l with state := applyAction e.action e.width.toNat l.state } else s.firing).lines
        reports := s.firing.reports ++ [reportOf s e lateness] } := by
  unfold State.dealWith
  dsimp only
  rw [wakeFor_firing, State.updFiring_firing]
  unfold reportOf fires
  split <;> rfl

theorem dealWith_line (e : CueEntry) (lateness : Nat) (s : State) (n : Fin 4) :
    (s.dealWith e lateness).firing.lines[n] = { s.firing.lines[n] with
      state := if fires s e && decide (e.line = n) then applyAction e.action e.width.toNat (s.firing.lines[n]).state
        else (s.firing.lines[n]).state } := by
  rw [dealWith_firing]
  by_cases hfires : fires s e
  · by_cases hn : e.line = n
    · subst hn
      simp [FiringUnit.updLine, hfires]
    · have hv : e.line.val ≠ n.val := fun h => hn (Fin.ext h)
      simp [FiringUnit.updLine, Vector.getElem_set_ne, hfires, hn, hv]
  · simp [hfires]

theorem foldl_dealWith_reports (lateness : CueEntry → Nat) (l : List CueEntry) (s : State) :
    (l.foldl (fun s e => s.dealWith e (lateness e)) s).firing.reports =
      s.firing.reports ++ l.map fun e => reportOf s e (lateness e) := by
  induction l generalizing s with
  | nil => simp
  | cons e rest ih => rw [List.foldl_cons, ih, dealWith_firing]; simp

theorem foldl_dealWith_line (lateness : CueEntry → Nat) (l : List CueEntry) (s : State) (n : Fin 4) :
    (l.foldl (fun s e => s.dealWith e (lateness e)) s).firing.lines[n] = { s.firing.lines[n] with
      state := (l.filter fun e => fires s e && decide (e.line = n)).foldl
        (fun l e => applyAction e.action e.width.toNat l) (s.firing.lines[n]).state } := by
  induction l generalizing s with
  | nil => rfl
  | cons e rest ih =>
    rw [List.foldl_cons, ih, dealWith_line, List.filter_cons, fires_dealWith]
    split <;> rfl

/-- A lateness reckoned with the round length as it stands is reckoned with the one before all. -/
theorem foldl_dealWith_roundLength (lateness : Nat → CueEntry → Nat) (l : List CueEntry) (s : State) :
    l.foldl (fun s e => s.dealWith e (lateness s.L e)) s = l.foldl (fun t e => t.dealWith e (lateness s.L e)) s := by
  induction l generalizing s with
  | nil => rfl
  | cons e rest ih =>
    have hL : (s.dealWith e (lateness s.L e)).L = s.L := by simp [State.L]
    rw [List.foldl_cons, List.foldl_cons, ih, hL]

/-! ## The span of a correction (R4, R144) -/

/-- The clock after a correction by `c` from L−64. -/
def corrected (s : State) (c : Int) : Instant := ⟨s.timer.clock.round, ((s.L : Int) - 64 + c).toNat⟩

theorem span_of_mem_skippedBy {s : State} {c : Int} {e : CueEntry} (he : e ∈ s.skippedBy c) :
    0 < instantDiff s.L e.due ⟨s.timer.clock.round, s.L - 64⟩ ∧ instantDiff s.L e.due (corrected s c) ≤ 0 := by
  unfold State.skippedBy at he
  exact of_decide_eq_true (List.mem_filter.mp he).2

/-- A backward correction passes over nothing. -/
theorem skippedBy_of_nonpos {s : State} {c : Int} (hc : c ≤ 0) : s.skippedBy c = [] := by
  have hL : 16384 ≤ s.L := roundLength_ge _
  refine List.eq_nil_iff_forall_not_mem.mpr fun e he => ?_
  obtain ⟨hafter, hby⟩ := span_of_mem_skippedBy he
  simp only [instantDiff, corrected] at hafter hby
  omega

/-- The difference of two rounds turns its sign with their order, but for rounds 2^23 apart (R4). -/
theorem round_sub_toInt (a b : Round) :
    (b - a).toInt = -(a - b).toInt ∨ (b - a).toInt = -2 ^ 23 := by
  rw [← neg_sub a b]
  by_cases h : a - b = BitVec.intMin 24
  · rw [h]; exact Or.inr (by decide)
  · exact Or.inl (BitVec.toInt_neg_of_ne_intMin h)

/-- An entry a correction passes over is at most 7 PU late, since it is due after L−64. -/
theorem lateness_le {s : State} {c : Int} (hc : c ≤ 8) {e : CueEntry} (he : e ∈ s.skippedBy c) :
    (instantDiff s.L (corrected s c) e.due).toNat ≤ 7 := by
  have hL : 16384 ≤ s.L := roundLength_ge _
  obtain ⟨hafter, hby⟩ := span_of_mem_skippedBy he
  simp only [instantDiff, corrected] at hafter hby ⊢
  rcases round_sub_toInt e.due.round s.timer.clock.round with hturn | hfar
  · rw [hturn, Int.neg_mul]
    omega
  · rw [hfar]
    omega

/-! ## A correction (R12, R144) -/

theorem watched_congr {s s' : State} (hcues : s'.cues = s.cues) (hfiring : s'.firing = s.firing) :
    s'.watched = s.watched := by
  unfold State.watched
  rw [hcues, hfiring]

theorem skippedBy_congr {s s' : State} (hclock : s'.timer.clock = s.timer.clock)
    (hlength : s'.timer.lengthCode = s.timer.lengthCode) (hcues : s'.cues = s.cues) (hfiring : s'.firing = s.firing)
    (c : Int) : s'.skippedBy c = s.skippedBy c := by
  unfold State.skippedBy State.L
  rw [watched_congr hcues hfiring, hlength, hclock]

/-- What the firing unit has to deal with depends on clock, round length, cue table, configuration and firing unit. -/
theorem firesSkipped_congr {s s' t t' : State} {c : Int} (h : s'.FiresSkipped t' c)
    (hclock : s'.timer.clock = s.timer.clock) (hlength : s'.timer.lengthCode = s.timer.lengthCode)
    (hcues : s'.cues = s.cues) (hconfig : s'.port.config = s.port.config) (hfiring : s'.firing = s.firing)
    (ht : t'.firing = t.firing) : s.FiresSkipped t c := by
  unfold State.FiresSkipped State.L at *
  rw [skippedBy_congr hclock hlength hcues hfiring, inGroup_congr hconfig, hclock, hlength, hfiring, ht] at h
  exact h

theorem corrected_eq {s : State} (hphase : s.timer.clock.phase = s.L - 64) (c : Int) :
    corrected s c = { s.timer.clock with phase := ((s.timer.clock.phase : Int) + c).toNat } := by
  have hL : 16384 ≤ s.L := roundLength_ge _
  have hsum : (s.L : Int) - 64 + c = (s.timer.clock.phase : Int) + c := by omega
  rw [corrected, hsum]

theorem correct_clock {s : State} (hphase : s.timer.clock.phase = s.L - 64) (c : Int) :
    (s.correct c).timer.clock = corrected s c := by
  rw [corrected_eq hphase]
  unfold State.correct
  split
  · rename_i hc
    simp [hc]
  · simp

/-- The state with the clock corrected and the arrival of a reception in progress moved, no entry dealt with yet. -/
def moveClock (c : Int) (s : State) : State :=
  (s.updTimer fun t => { t with clock := corrected s c, counted := false }).moveArrival c

theorem correct_eq_fireSkipped {s : State} {c : Int} (hc : c ≠ 0) (hphase : s.timer.clock.phase = s.L - 64) :
    s.correct c = (moveClock c s).fireSkipped s.timer.clock (corrected s c) := by
  unfold State.correct moveClock
  rw [if_neg hc, corrected_eq hphase]

/-- A correction that moves the clock deals with what it passes over, each entry as late as it then is. -/
theorem correct_eq_foldl {s : State} {c : Int} (hc : c ≠ 0) (hphase : s.timer.clock.phase = s.L - 64) :
    s.correct c = (s.skippedBy c).foldl
      (fun t e => t.dealWith e (instantDiff s.L (corrected s c) e.due).toNat) (moveClock c s) := by
  have hclock : s.timer.clock = ⟨s.timer.clock.round, s.L - 64⟩ := by rw [← hphase]
  have hwatched : (moveClock c s).watched = s.watched := watched_congr (by simp [moveClock]) (by simp [moveClock])
  have hL : (moveClock c s).L = s.L := by simp [moveClock, State.L]
  rw [correct_eq_fireSkipped hc hphase, State.fireSkipped,
    foldl_dealWith_roundLength (fun L e => (instantDiff L (corrected s c) e.due).toNat), hwatched, hL, hclock]
  rfl

theorem correct_firesSkipped {s : State} (hphase : s.timer.clock.phase = s.L - 64) (c : Int) :
    s.FiresSkipped (s.correct c) c := by
  by_cases hc : c = 0
  · subst hc
    unfold State.FiresSkipped
    simp [skippedBy_of_nonpos, State.correct]
  · have hfiring : (moveClock c s).firing = s.firing := by simp [moveClock]
    have hgroup : (moveClock c s).inGroup = s.inGroup := inGroup_congr (by simp [moveClock])
    rw [correct_eq_foldl hc hphase]
    refine ⟨?_, fun n => ?_⟩
    · rw [foldl_dealWith_reports, hfiring]
      unfold reportOf fires
      rw [hgroup]
      rfl
    · rw [foldl_dealWith_line, hfiring]
      unfold fires
      rw [hgroup]

/-! ## What comes before the correction (R98, R142, R144) -/

/-- PULSE_END for each line and CUE_FALLS_DUE do what the clock's arrival at L−64 does to the firing unit. -/
theorem runRows_pulseEnds_cueFallsDue (s : State) :
    runRows [.pulseEnd 0, .pulseEnd 1, .pulseEnd 2, .pulseEnd 3, .cueFallsDue] s = .next s.endPulses.fallDue := by
  have hlines : ((((s.firing.updLine 0 ActionLine.endPulse).updLine 1 ActionLine.endPulse).updLine 2
      ActionLine.endPulse).updLine 3 ActionLine.endPulse) = s.firing.mapLines ActionLine.endPulse := by
    unfold FiringUnit.updLine FiringUnit.mapLines
    congr 1
    ext i hi
    interval_cases i <;> simp
  exact congrArg (fun firing => Host.Outcome.next (State.fallDue { s with firing := firing })) hlines

/-- Arriving at the seam point sets the seam record, ends pulses and fires what is due, and the station stays AWAKE: what
falls due wakes a dozing station only (R10, R144, R156). -/
theorem seamArrival_of_awake {s : State} (h : s.Awake) :
    s.seamArrival.timer = { s.timer with seamRecord := some s.timer.clock.round } ∧
    s.seamArrival.firing = s.endPulses.fallDue.firing ∧ s.seamArrival.Awake := by
  have hpower : s.endPulses.fallDue.power = s.endPulses.power := fallDue_power (by simp [h.2])
  unfold State.seamArrival
  refine ⟨by simp, by simp, by simp [h.1], ?_⟩
  simp [hpower, h.2]

/-- What the sync unit and the membership controller make of the seam point, in the order given (R98). -/
def actOnSeam (syncFirst : Bool) (s : State) : State :=
  if syncFirst then s.syncSeam.memberSeam else s.memberSeam.syncSeam

theorem announceSeam_eq {s : State} (ha : s.Awake) (hdue : s.seamDue = true) (syncFirst : Bool) :
    s.announceSeam syncFirst = actOnSeam syncFirst s.seamArrival := by
  obtain ⟨_, _, hawake⟩ := seamArrival_of_awake ha
  unfold State.announceSeam
  rw [if_pos hdue]
  exact if_pos hawake

/-! ## The membership controller at the seam point (R84, R85, R101) -/

theorem movesTo_iff (own : CellTag) (ownId : Byte) (c : Candidate) :
    movesTo own ownId c = true ↔ DecidesToMove own ownId c := by
  unfold movesTo DecidesToMove
  split_ifs with hmembers hlowest hlead
  · simp only [decide_eq_true_eq]; omega
  · simp [not_not.mp hmembers, hlowest]
  · simp [not_not.mp hmembers, not_not.mp hlowest]; omega
  · simp [not_not.mp hmembers, not_not.mp hlowest, not_not.mp hlead]

/-- With no candidate to move to, the candidate goes and the tests follow. -/
theorem memberSeam_of_stays {s : State} (hcell : s.member.station.inCell = true)
    (h : ∀ cand, s.member.candidate = some cand → ¬ DecidesToMove s.tag s.ownId cand) :
    s.memberSeam = (s.updMember fun m => { m with candidate := none }).holdTests := by
  unfold State.memberSeam
  rw [if_pos hcell]
  cases hcand : s.member.candidate with
  | some cand => exact if_neg (mt (movesTo_iff _ _ _).mp (h cand hcand))
  | none =>
    have hnone : { s.member with candidate := none } = s.member := by rw [← hcand]
    simp only [State.updMember, hnone]

theorem yieldSlot_inCell {s : State} (h : s.member.station.inCell = true) :
    s.yieldSlot.member.station.inCell = true := by
  unfold State.yieldSlot
  split
  · simp [StationState.inCell]
  · exact h

/-- The tests take the station from one state that computes a correction to another. -/
theorem holdTests_inCell {s : State} (h : s.member.station.inCell = true) :
    s.holdTests.member.station.inCell = true := by
  unfold State.holdTests
  split
  case h_1 =>
    (repeat' split) <;> simp_all [StationState.inCell]
  case h_2 =>
    split
    · exact yieldSlot_inCell h
    · exact h
  all_goals exact h

/-- But for the end of a leave, what the membership controller does leaves firing unit and cue table. -/
theorem memberSeam_firing {s : State}
    (h : s.member.station ≠ .leaving ∨
      ∀ cand, s.member.candidate = some cand → ¬ DecidesToMove s.tag s.ownId cand) :
    s.memberSeam.firing = s.firing ∧ s.memberSeam.cues = s.cues := by
  unfold State.memberSeam
  split
  · split
    next hcell cand hcand =>
      by_cases hmoves : movesTo s.tag s.ownId cand = true
      · have hstation : s.member.station ≠ .leaving :=
          h.resolve_right fun hstays => hstays cand hcand ((movesTo_iff _ _ _).mp hmoves)
        rw [if_pos hmoves, if_neg hstation]
        simp
      · rw [if_neg hmoves]
        simp
    next => simp
  · exact ⟨rfl, rfl⟩

/-! ## The seam point (R98, R144) -/

theorem syncSeam_firesSkipped {s : State} (hcell : s.member.station.inCell = true)
    (hphase : s.timer.clock.phase = s.L - 64) : s.FiresSkipped s.syncSeam s.seamCorrection := by
  have hsync : ∃ u, s.syncSeam = ({ s with sync := u } : State).correct s.seamCorrection := by
    unfold State.syncSeam
    exact ⟨_, if_pos hcell⟩
  obtain ⟨u, hu⟩ := hsync
  rw [hu]
  exact firesSkipped_congr (correct_firesSkipped (s := { s with sync := u }) hphase _) rfl rfl rfl rfl rfl rfl

/-- The sync unit deals with the same entries after the membership controller as before it. -/
theorem memberSeam_syncSeam_firesSkipped {s : State} (hcell : s.member.station.inCell = true)
    (hphase : s.timer.clock.phase = s.L - 64)
    (h : ∀ cand, s.member.candidate = some cand → ¬ DecidesToMove s.tag s.ownId cand) :
    s.FiresSkipped s.memberSeam.syncSeam s.seamCorrection := by
  obtain ⟨hfiring, hcues⟩ := memberSeam_firing (Or.inr h)
  have hstays := memberSeam_of_stays hcell h
  have hcell' : s.memberSeam.member.station.inCell = true := by
    rw [hstays]
    exact holdTests_inCell hcell
  have hcorrection : s.memberSeam.seamCorrection = s.seamCorrection := by
    simp [State.seamCorrection, hstays]
  have hfires := syncSeam_firesSkipped hcell' (by simpa [State.L] using hphase)
  rw [hcorrection] at hfires
  exact firesSkipped_congr hfires (by simp) (by simp) hcues (by simp) hfiring rfl

/-- The two units deal with the entries of the sync unit's correction, and leave the cue table, wherever no leave ends
and, with the membership controller first, no move is made. -/
theorem actOnSeam_firesSkipped {syncFirst : Bool} {s : State} (hcell : s.member.station.inCell = true)
    (hphase : s.timer.clock.phase = s.L - 64)
    (h : syncFirst = true ∧ s.member.station ≠ .leaving ∨
      ∀ cand, s.member.candidate = some cand → ¬ DecidesToMove s.tag s.ownId cand) :
    s.FiresSkipped (actOnSeam syncFirst s) s.seamCorrection ∧ (actOnSeam syncFirst s).cues = s.cues := by
  cases syncFirst with
  | true =>
    obtain ⟨hfiring, hcues⟩ := memberSeam_firing (s := s.syncSeam)
      (by simpa [State.tag, State.ownId] using h.imp_left And.right)
    exact ⟨firesSkipped_congr (syncSeam_firesSkipped hcell hphase) rfl rfl rfl rfl rfl hfiring.symm,
      hcues.trans (by simp)⟩
  | false =>
    have hstays := h.resolve_left (by simp)
    exact ⟨memberSeam_syncSeam_firesSkipped hcell hphase hstays,
      by simp [actOnSeam, memberSeam_firing (Or.inr hstays)]⟩

/-- Settles O19: the fold over the skipped entries for one correction; for the seam point the firing unit as the
arrival there left it, which the membership controller does not touch in either order. -/
theorem correctionFiresTheSkippedSpan : Obligations.CorrectionFiresTheSkippedSpan := by
  refine ⟨fun s c hphase _ hc => ⟨correct_clock hphase c, correct_firesSkipped hphase c,
    fun e he => lateness_le hc he, skippedBy_of_nonpos⟩, fun b s ha hdue hcell h => ?_⟩
  obtain ⟨htimer, hfiring, _⟩ := seamArrival_of_awake ha
  obtain ⟨_, _, hphase, _⟩ := of_decide_eq_true hdue
  change s.timer.clock.phase = s.L - 64 at hphase
  have hcorrection : s.seamArrival.seamCorrection = s.seamCorrection := by
    simp [State.seamCorrection, htimer]
  obtain ⟨hfires, hcues⟩ := actOnSeam_firesSkipped (syncFirst := b) (s := s.seamArrival) (by simpa using hcell)
    (by simpa [htimer, State.L] using hphase) (by simpa [State.tag, State.ownId] using h)
  rw [hcorrection] at hfires
  refine ⟨s.endPulses.fallDue, s.announceSeam b, runRows_pulseEnds_cueFallsDue s, rfl, ?_⟩
  rw [announceSeam_eq ha hdue]
  exact ⟨firesSkipped_congr hfires (by simp [htimer]) (by simp) (by simp) (by simp) hfiring rfl,
    hcues.trans (by simp)⟩

end Sys2Proof.Machine.SharedTime
end

section
/-! PROOFS. The cue table by itself: the order and the place of a newcomer, room made for it, the keep or clear rule
(R107, R116 to R118, R122, R123). -/

namespace Sys2Proof.Machine.Cueing

/-! ## The state of an entry (R106) -/

theorem active_iff {e : CueEntry} : e.active = true ↔ e.state = .pending ∨ e.state = .withdrawn := by
  unfold CueEntry.active
  cases e.state <;> simp

theorem evictable_iff {e : CueEntry} : e.evictable = true ↔ e.state = .pending ∧ e.own = false := by
  simp [CueEntry.evictable]

/-! ## Keys (R106) -/

theorem findCue_eq_none {entries : List CueEntry} {origin seq : Byte}
    (h : ∀ e ∈ entries, ¬ (e.origin = origin ∧ e.seq = seq)) : findCue entries origin seq = none :=
  List.find?_eq_none.mpr fun e he hkey => h e he (of_decide_eq_true hkey)

theorem findCue_isSome {entries : List CueEntry} {origin seq : Byte}
    (h : ∃ e ∈ entries, e.origin = origin ∧ e.seq = seq) : (findCue entries origin seq).isSome = true := by
  obtain ⟨e, he, hkey⟩ := h
  exact List.find?_isSome.mpr ⟨e, he, decide_eq_true hkey⟩

theorem updateCue_eq (entries : List CueEntry) (origin seq : Byte) (f : CueEntry → CueEntry) :
    updateCue entries origin seq f = entries.map fun e => if e.origin = origin ∧ e.seq = seq then f e else e := by
  simp [updateCue, CueEntry.hasKey]

/-! ## The order of the table (R107) -/

/-- A newcomer stands before the first entry it comes before. -/
theorem insertCue_eq (L : Nat) (e : CueEntry) (entries : List CueEntry) :
    insertCue L e entries =
      entries.takeWhile (fun x => !e.before L x) ++ e :: entries.dropWhile fun x => !e.before L x := by
  induction entries with
  | nil => rfl
  | cons x rest ih =>
    unfold insertCue
    by_cases h : e.before L x = true
    · simp [h]
    · simp [h, ih]

theorem due_le_of_before {L : Nat} {a b : CueEntry} (h : a.before L b = true) : instantDiff L a.due b.due ≤ 0 := by
  rcases of_decide_eq_true h with hlt | ⟨heq, -⟩
  · exact hlt.le
  · exact heq.le

/-! ## Making room (R117, R118) -/

/-- A RETIRED entry not later than the clock, which goes silently (R117). -/
def spent (L : Nat) (now : Instant) (e : CueEntry) : Bool := e.isRetired && decide (instantDiff L e.due now ≤ 0)

theorem spent_eq_false {L : Nat} {now : Instant} {e : CueEntry}
    (h : e.isRetired = true → 0 < instantDiff L e.due now) : ¬ spent L now e = true := by
  unfold spent
  rw [Bool.and_eq_true, decide_eq_true_eq]
  exact fun ⟨hretired, hpast⟩ => absurd (h hretired) (not_lt.mpr hpast)

theorem makeRoom_of_short (L : Nat) (now due : Instant) {entries : List CueEntry} (h : entries.length < 24) :
    makeRoom L now due entries = some (entries, []) := if_pos h

theorem makeRoom_of_spent {L : Nat} {now : Instant} (due : Instant) {entries : List CueEntry} {e : CueEntry}
    (hfull : 24 ≤ entries.length) (hfind : entries.find? (spent L now) = some e) :
    makeRoom L now due entries = some (removeCue entries e.origin e.seq, []) := by
  unfold makeRoom
  rw [if_neg (Nat.not_lt.mpr hfull)]
  unfold spent at hfind
  rw [hfind]

/-- In a full table with no spent entry, the last possible victim decides (R118, log 28). -/
theorem makeRoom_of_full {L : Nat} {now : Instant} (due : Instant) {entries : List CueEntry}
    (hfull : 24 ≤ entries.length) (hlater : ∀ x ∈ entries, x.isRetired = true → 0 < instantDiff L x.due now) :
    makeRoom L now due entries = (entries.reverse.find? CueEntry.evictable).bind fun v =>
      if instantDiff L due v.due < 0 then some (removeCue entries v.origin v.seq, [.cueEvicted v.origin v.seq])
      else none := by
  have hnone : entries.find? (spent L now) = none :=
    List.find?_eq_none.mpr fun x hx => spent_eq_false (hlater x hx)
  unfold makeRoom
  rw [if_neg (Nat.not_lt.mpr hfull)]
  unfold spent at hnone
  rw [hnone]
  cases entries.reverse.find? CueEntry.evictable <;> rfl

theorem find?_spent {L : Nat} {now : Instant} {a b : List CueEntry} {e : CueEntry}
    (hbefore : ∀ x ∈ a, x.isRetired = true → 0 < instantDiff L x.due now) (hretired : e.isRetired = true)
    (hpast : instantDiff L e.due now ≤ 0) : (a ++ e :: b).find? (spent L now) = some e := by
  have ha : a.find? (spent L now) = none := List.find?_eq_none.mpr fun x hx => spent_eq_false (hbefore x hx)
  have he : spent L now e = true := by simp [spent, hretired, hpast]
  rw [List.find?_append, ha, List.find?_cons_of_pos he]
  rfl

theorem find?_no_victim {entries : List CueEntry} (h : ∀ x ∈ entries, x.state = .pending → x.own = true) :
    entries.reverse.find? CueEntry.evictable = none :=
  List.find?_eq_none.mpr fun x hx hevictable => by
    obtain ⟨hpending, hother⟩ := evictable_iff.mp hevictable
    simp [h x (List.mem_reverse.mp hx) hpending] at hother

theorem find?_victim {a b : List CueEntry} {v : CueEntry} (hstate : v.state = .pending) (hown : v.own = false)
    (hafter : ∀ x ∈ b, x.state = .pending → x.own = true) :
    (a ++ v :: b).reverse.find? CueEntry.evictable = some v := by
  have hb := find?_no_victim hafter
  have hv : v.evictable = true := evictable_iff.mpr ⟨hstate, hown⟩
  simp [hb, hv]

/-! ## The keep or clear rule (R122, R123) -/

theorem overtake_eq (L : Nat) (now : Instant) (e : CueEntry) : e.overtake L now =
    if e.state = .pending ∧ instantDiff L e.due now ≤ 0 then { e with state := .retired .missed }
    else if e.state = .withdrawn ∧ instantDiff L e.due now ≤ 0 then { e with state := .retired .withdrawn }
    else e := by
  unfold CueEntry.overtake CueEntry.overtaken CueEntry.active
  cases hstate : e.state with
  | pending => simp
  | withdrawn => simp
  | retired reason => simp

theorem overtaken_and_pending (L : Nat) (now : Instant) (e : CueEntry) :
    (e.overtaken L now && decide (e.state = .pending)) =
      (decide (e.state = .pending) && decide (instantDiff L e.due now ≤ 0)) := by
  unfold CueEntry.overtaken CueEntry.active
  cases e.state <;> simp

/-- Settles O39: an entry by its state, the events by the same test. -/
theorem alignmentKeepsOrClearsTheCues : Obligations.AlignmentKeepsOrClearsTheCues := by
  intro L now d entries
  unfold keepOrClear
  simp only [decide_eq_true_eq, ← overtake_eq, overtaken_and_pending]

end Sys2Proof.Machine.Cueing
end

section
/-! PROOFS. Carry items: which are discarded, what one does to the entry that holds its key, and the place of a newcomer
(R113 to R118). -/

namespace Sys2Proof.Machine.Cueing

/-! ## One item against the table (R113 to R116) -/

/-- The item is neither stale nor beyond the horizon (R113). -/
def inHorizon (L : Nat) (now due : Instant) : Prop :=
  0 < instantDiff L due now ∧ instantDiff L due (instantAddRounds now 4096) ≤ 0

theorem takeCarryItem_of_discarded {L : Nat} {now : Instant} {own : Byte} {i : CarryItem} {entries : List CueEntry}
    (h : instantDiff L i.due now ≤ 0 ∨ 0 < instantDiff L i.due (instantAddRounds now 4096) ∨
      i.origin = own ∧ findCue entries i.origin i.seq = none) :
    takeCarryItem L now own i entries = (entries, []) := if_pos h

/-- What an item not discarded does to the entry that holds its key (R114, R115). -/
def takeOnHeld (i : CarryItem) (e : CueEntry) (entries : List CueEntry) : List CueEntry × List EventKind :=
  match e.state, i.kind with
  | .pending, .cue => if i.sameContent e then (entries, []) else (entries, [.cueConflict i.origin i.seq])
  | .pending, .withdrawal =>
    if i.due = e.due then (updateCue entries i.origin i.seq CueEntry.withdraw, [])
    else (entries, [.cueConflict i.origin i.seq])
  | .withdrawn, _ => (entries, [])
  | .retired _, _ => (entries, [])

theorem takeCarryItem_of_held {L : Nat} {now : Instant} (own : Byte) {i : CarryItem} {entries : List CueEntry}
    {e : CueEntry} (hdue : inHorizon L now i.due) (hheld : findCue entries i.origin i.seq = some e) :
    takeCarryItem L now own i entries = takeOnHeld i e entries := by
  obtain ⟨hahead, hbeyond⟩ := hdue
  have hkept : ¬ (instantDiff L i.due now ≤ 0 ∨ 0 < instantDiff L i.due (instantAddRounds now 4096) ∨
      i.origin = own ∧ findCue entries i.origin i.seq = none) := by simp [hheld, hahead, hbeyond]
  refine (if_neg hkept).trans ?_
  rw [hheld]
  rfl

theorem takeOnHeld_of_not_pending {i : CarryItem} {e : CueEntry} (h : e.state ≠ .pending)
    (entries : List CueEntry) : takeOnHeld i e entries = (entries, []) := by
  unfold takeOnHeld
  cases hstate : e.state with
  | pending => exact absurd hstate h
  | withdrawn => rfl
  | retired reason => rfl

theorem takeOnHeld_cue {i : CarryItem} {e : CueEntry} (hstate : e.state = .pending) (hkind : i.kind = .cue)
    (entries : List CueEntry) : takeOnHeld i e entries =
      if i.due = e.due ∧ i.line = e.line ∧ i.action = e.action ∧ i.mask = e.mask ∧
          (i.action = .pulse → i.width = e.width) then (entries, [])
      else (entries, [.cueConflict i.origin i.seq]) := by
  unfold takeOnHeld CarryItem.sameContent
  rw [hstate, hkind]
  simp only [decide_eq_true_eq]

theorem takeOnHeld_withdrawal {i : CarryItem} {e : CueEntry} (hstate : e.state = .pending)
    (hkind : i.kind = .withdrawal) (entries : List CueEntry) : takeOnHeld i e entries =
      if i.due = e.due then (updateCue entries i.origin i.seq CueEntry.withdraw, [])
      else (entries, [.cueConflict i.origin i.seq]) := by
  unfold takeOnHeld
  rw [hstate, hkind]

theorem toEntry_eq (i : CarryItem) : i.toEntry =
    { origin := i.origin, seq := i.seq, due := i.due, line := i.line, action := i.action
      width := i.width, mask := i.mask, forward := 0, own := false
      state := if i.kind = .cue then .pending else .withdrawn } := by
  unfold CarryItem.toEntry
  cases i.kind <;> rfl

/-- A newcomer that is not discarded depends on the room there is (R116). -/
theorem takeCarryItem_of_newcomer {L : Nat} {now : Instant} {own : Byte} {i : CarryItem} {entries : List CueEntry}
    (hdue : inHorizon L now i.due) (hother : i.origin ≠ own) (hnew : findCue entries i.origin i.seq = none) :
    takeCarryItem L now own i entries = ((makeRoom L now i.due entries).elim (entries, [.cueRefused i.origin i.seq])
      fun made => (insertCue L i.toEntry made.1, made.2)) := by
  obtain ⟨hahead, hbeyond⟩ := hdue
  have hkept : ¬ (instantDiff L i.due now ≤ 0 ∨ 0 < instantDiff L i.due (instantAddRounds now 4096) ∨
      i.origin = own ∧ findCue entries i.origin i.seq = none) := by simp [hother, hahead, hbeyond]
  refine (if_neg hkept).trans ?_
  rw [hnew]
  cases makeRoom L now i.due entries <;> rfl

/-! ## CARRY_ITEM (R113 to R118, R120) -/

/-- The state with another cue table, and events queued with its clock. -/
def tableTook (m : State) (cues : CueTable) (events : List EventKind) : State :=
  { m with
    cues := cues
    port := { m.port with
      events := (events.map fun k => ⟨k, m.timer.clock⟩).foldl appendEvent m.port.events } }

theorem tableTook_unchanged (m : State) : tableTook m m.cues [] = m := rfl

theorem updCues_queueAll (m : State) (f : CueTable → CueTable) (events : List EventKind) :
    (m.updCues f).queueAll events = tableTook m (f m.cues) events := queueAll_eq ..

theorem itemTaken_clock (s : State) (rest : List CarryItem) : (s.itemTaken rest).timer.clock = s.timer.clock := by
  simp [State.itemTaken]

theorem exec_carryItem {s : State} {i : CarryItem} {rest : List CarryItem} (ha : s.Awake)
    (hitems : s.frame.items = i :: rest) {d : List CueEntry × List EventKind}
    (hd : takeCarryItem s.L s.timer.clock s.ownId i (s.itemTaken rest).cues.entries = d) :
    exec .carryItem s =
      .next (tableTook (s.itemTaken rest) { (s.itemTaken rest).cues with entries := d.1 } d.2) := by
  show Host.Outcome.next (if s.Awake then s.takeItem else s) = _
  have hL : (s.itemTaken rest).L = s.L := by simp [State.itemTaken, State.L]
  have hown : (s.itemTaken rest).ownId = s.ownId := by simp [State.itemTaken, State.ownId]
  rw [if_pos ha, State.takeItem, hitems, ← hd, ← hL, ← hown, ← itemTaken_clock s rest]
  exact congrArg Host.Outcome.next (updCues_queueAll ..)

theorem exec_carryItem_of_idle {s : State} (h : s.power.state ≠ .awake ∨ s.frame.items = []) :
    exec .carryItem s = .next s := by
  show Host.Outcome.next (if s.Awake then s.takeItem else s) = _
  rcases h with hasleep | hnone
  · rw [if_neg fun ha => hasleep ha.2]
  · rw [State.takeItem, hnone, ite_self]

/-- Settles O40: the discards of R113, then the entry held by its state and the item's kind. -/
theorem carryItemsAreJudged : Obligations.CarryItemsAreJudged := by
  refine ⟨fun s i rest ha hitems => ?_, fun s => exec_carryItem_of_idle⟩
  have hclock := itemTaken_clock s rest
  refine ⟨fun h => ?_, fun e hahead hbeyond hheld => ?_⟩
  · rw [exec_carryItem ha hitems (takeCarryItem_of_discarded h), tableTook_unchanged]
  · rw [exec_carryItem ha hitems (takeCarryItem_of_held s.ownId ⟨hahead, hbeyond⟩ hheld)]
    refine ⟨fun hstate => ?_, fun hstate hkind => ?_, fun hstate hkind => ?_⟩
    · rw [takeOnHeld_of_not_pending hstate, tableTook_unchanged]
    · rw [takeOnHeld_cue hstate hkind, ← hclock]
      split <;> rfl
    · rw [takeOnHeld_withdrawal hstate hkind, updateCue_eq, ← hclock]
      split <;> rfl

/-- Settles O41: the newcomer's way through `makeRoom`, then the cases of `makeRoom` and the place in the order. -/
theorem newcomersFindTheirPlace : Obligations.NewcomersFindTheirPlace := by
  refine ⟨fun s i rest ha hitems hahead hbeyond hother hnew => ?_,
    fun L now due entries => makeRoom_of_short L now due,
    fun L now due a b e hfull hbefore hretired hpast =>
      makeRoom_of_spent due hfull (find?_spent hbefore hretired hpast),
    fun L now due a b v hfull hlater hstate hown hafter => ?_,
    fun L now due entries hfull hlater hnone => ?_,
    fun L e entries => insertCue_eq L e entries⟩
  · have hclock := itemTaken_clock s rest
    rw [exec_carryItem ha hitems
      (takeCarryItem_of_newcomer ⟨hahead, hbeyond⟩ hother (findCue_eq_none hnew)), toEntry_eq]
    cases makeRoom s.L s.timer.clock i.due (s.itemTaken rest).cues.entries with
    | some made => rw [← hclock]; rfl
    | none => rw [← hclock]; rfl
  · rw [makeRoom_of_full due hfull hlater, find?_victim hstate hown hafter]
    rfl
  · rw [makeRoom_of_full due hfull hlater, find?_no_victim hnone]
    rfl

end Sys2Proof.Machine.Cueing
end

section
/-! PROOFS. POST and WITHDRAW: the checks of R110 in their order, the table after a post, and the answer to a withdrawal
by the entry held (R109 to R112). -/

namespace Sys2Proof.Machine.Cueing

/-! ## The field check of POST (R110) -/

theorem actionOfCode_code (action : Action) : actionOfCode action.code = some action := by
  cases action <;> rfl

theorem code_of_actionOfCode {n : Nat} {action : Action} (h : actionOfCode n = some action) : action.code = n := by
  unfold actionOfCode at h
  split at h <;> cases h <;> rfl

theorem code_bounds (action : Action) : 1 ≤ action.code ∧ action.code ≤ 4 := by
  cases action <;> decide

theorem postFields_eq_some {L : Nat} {p : PostParams} {line : Fin 4} {action : Action}
    (hline : p.line.toNat = line.val) (haction : p.action.toNat = action.code) (hmask : p.mask ≠ 0)
    (hwidth : action = .pulse → p.width ≠ 0) (hphase : p.duePhase.toNat < L) :
    postFields L p = some (line, action) := by
  unfold postFields
  rw [haction, actionOfCode_code]
  have hchecks : p.mask ≠ 0 ∧ (action = .pulse → p.width ≠ 0) ∧ p.duePhase.toNat < L := ⟨hmask, hwidth, hphase⟩
  simp only [hline, if_pos hchecks, line.isLt, dite_true]

theorem postFields_eq_none {L : Nat} {p : PostParams}
    (h : 4 ≤ p.line.toNat ∨ p.action = 0 ∨ 4 < p.action.toNat ∨ p.mask = 0 ∨
      p.action = 1 ∧ p.width = 0 ∨ L ≤ p.duePhase.toNat) : postFields L p = none := by
  unfold postFields
  cases hcode : actionOfCode p.action.toNat with
  | none => rfl
  | some action =>
    have hnumber := code_of_actionOfCode hcode
    obtain ⟨hfirst, hlast⟩ := code_bounds action
    dsimp only
    split
    case isFalse => rfl
    case isTrue hline =>
      refine if_neg fun ⟨hmask, hwidth, hphase⟩ => ?_
      rcases h with h | h | h | h | ⟨hpulse, hzero⟩ | h
      · omega
      · rw [h] at hnumber
        exact absurd hnumber (by simp; omega)
      · omega
      · exact hmask h
      · rw [hpulse] at hcode
        exact hwidth (Option.some.inj hcode).symm hzero
      · omega

/-! ## A POST taken in SETTLED (R109 to R111) -/

/-- The entry a POST makes (R111). -/
def postedEntry (own n : Byte) (p : PostParams) (line : Fin 4) (action : Action) : CueEntry :=
  { origin := own, seq := n, due := ⟨p.dueRound, p.duePhase.toNat⟩, line := line, action := action
    width := p.width, mask := p.mask, state := .pending, forward := 0, own := true }

theorem postCue_badArg {L : Nat} {p : PostParams} (now : Instant) (own : Byte) (t : CueTable)
    (h : postFields L p = none) : postCue L now own p t = (t, [], .badArg, .none) := by
  unfold postCue
  rw [h]

section Fields

variable {L : Nat} {now : Instant} {own : Byte} {p : PostParams} {t : CueTable} {line : Fin 4} {action : Action}

theorem postCue_tooSoon (hfields : postFields L p = some (line, action))
    (hlead : instantDiff L ⟨p.dueRound, p.duePhase.toNat⟩ (instantAddRounds now 2) < 0) :
    postCue L now own p t = (t, [], .tooSoon, .none) := by
  unfold postCue
  rw [hfields]
  exact if_pos hlead

theorem postCue_tooFar (hfields : postFields L p = some (line, action))
    (hlead : 0 ≤ instantDiff L ⟨p.dueRound, p.duePhase.toNat⟩ (instantAddRounds now 2))
    (hhorizon : 0 < instantDiff L ⟨p.dueRound, p.duePhase.toNat⟩ (instantAddRounds now 4096)) :
    postCue L now own p t = (t, [], .tooFar, .none) := by
  unfold postCue
  rw [hfields]
  exact (if_neg hlead.not_gt).trans (if_pos hhorizon)

theorem postCue_quota (hfields : postFields L p = some (line, action))
    (hlead : 0 ≤ instantDiff L ⟨p.dueRound, p.duePhase.toNat⟩ (instantAddRounds now 2))
    (hhorizon : instantDiff L ⟨p.dueRound, p.duePhase.toNat⟩ (instantAddRounds now 4096) ≤ 0)
    (hcount : 8 ≤ ownCount t.entries) : postCue L now own p t = (t, [], .quota, .none) := by
  unfold postCue
  rw [hfields]
  exact (if_neg hlead.not_gt).trans ((if_neg hhorizon.not_gt).trans (if_pos hcount))

/-- Past the checks the number is the key's, and key and room decide (R109, R111). -/
theorem postCue_of_passed (hfields : postFields L p = some (line, action))
    (hlead : 0 ≤ instantDiff L ⟨p.dueRound, p.duePhase.toNat⟩ (instantAddRounds now 2))
    (hhorizon : instantDiff L ⟨p.dueRound, p.duePhase.toNat⟩ (instantAddRounds now 4096) ≤ 0)
    (hcount : ownCount t.entries < 8) : postCue L now own p t =
      if (findCue t.entries own t.nextSeq).isSome then
        ({ t with nextSeq := t.nextSeq + 1 }, [], .conflict, .seq t.nextSeq)
      else (makeRoom L now ⟨p.dueRound, p.duePhase.toNat⟩ t.entries).elim
        ({ t with nextSeq := t.nextSeq + 1 }, [], .full, .seq t.nextSeq)
        fun made => ({ entries := insertCue L (postedEntry own t.nextSeq p line action) made.1
                       nextSeq := t.nextSeq + 1 }, made.2, .ok, .seq t.nextSeq) := by
  unfold postCue
  rw [hfields]
  refine (if_neg hlead.not_gt).trans ((if_neg hhorizon.not_gt).trans ((if_neg hcount.not_ge).trans ?_))
  cases makeRoom L now ⟨p.dueRound, p.duePhase.toNat⟩ t.entries <;> rfl

end Fields

/-! ## The two commands -/

theorem exec_post {s : State} {p : PostParams} {rest : List TakenRecord} (h : s.Executes (.post p) rest) :
    exec .post s = .next (answer 0x05 rest (runPost p s.settleCues)) := by
  show execPost s = _
  unfold execPost
  rw [oldestTaken_of h.1 h.2]
  rfl

theorem exec_withdraw {s : State} {n : Byte} {rest : List TakenRecord} (h : s.Executes (.withdraw n) rest) :
    exec .withdraw s = .next (answer 0x06 rest (runWithdraw n s.recordReports)) := by
  show execWithdraw s = _
  unfold execWithdraw
  rw [oldestTaken_of h.1 h.2]
  rfl

theorem exec_post_of_settled {s : State} {p : PostParams} {rest : List TakenRecord}
    (h : s.Executes (.post p) rest) (hstation : s.member.station = .settled)
    {d : CueTable × List EventKind × ResultCode × Payload}
    (hpost : postCue s.L s.timer.clock s.ownId p s.settleCues.cues = d) :
    exec .post s = .next ((tableTook s.settleCues d.1 d.2.1).answered rest d.2.2.1 0x05 d.2.2.2) := by
  have hL : s.settleCues.L = s.L := by simp [State.L]
  have hown : s.settleCues.ownId = s.ownId := by simp [State.ownId]
  have hclock : s.settleCues.timer.clock = s.timer.clock := by simp
  rw [exec_post h, runPost, if_pos (by simpa using hstation), hL, hown, hclock, hpost]
  exact congrArg (fun m => Host.Outcome.next (answer 0x05 rest (m, d.2.2.1, d.2.2.2))) (updCues_queueAll ..)

theorem exec_post_of_other {s : State} {p : PostParams} {rest : List TakenRecord}
    (h : s.Executes (.post p) rest) (hstation : s.member.station ≠ .settled) :
    exec .post s = .next (s.settleCues.answered rest .wrongState 0x05 .none) := by
  rw [exec_post h, runPost, if_neg (by simpa using hstation)]
  rfl

theorem runWithdraw_of_outside {s : State} (h : s.member.station = .unconfigured ∨ s.member.station = .ready)
    (n : Byte) : runWithdraw n s = (s, .wrongState, .none) := by
  unfold runWithdraw
  rcases h with h | h <;> rw [h]

theorem runWithdraw_of_inside {s : State} (hunconfigured : s.member.station ≠ .unconfigured)
    (hready : s.member.station ≠ .ready) (n : Byte) : runWithdraw n s =
      ({ s with cues := { s.cues with entries := (withdrawCue s.ownId n s.cues.entries).1 } },
        (withdrawCue s.ownId n s.cues.entries).2, .none) := by
  unfold runWithdraw
  cases hstation : s.member.station with
  | unconfigured => exact absurd hstation hunconfigured
  | ready => exact absurd hstation hready
  | _ => rfl

section Withdrawals

variable {own seq : Byte} {entries : List CueEntry} {e : CueEntry}

theorem withdrawCue_of_none (h : findCue entries own seq = none) :
    withdrawCue own seq entries = (entries, .notFound) := by
  unfold withdrawCue
  rw [h]

theorem withdrawCue_of_pending (h : findCue entries own seq = some e) (hstate : e.state = .pending) :
    withdrawCue own seq entries = (updateCue entries own seq CueEntry.withdraw, .ok) := by
  simp only [withdrawCue, h, hstate]

theorem withdrawCue_of_withdrawn (h : findCue entries own seq = some e) (hstate : e.state = .withdrawn) :
    withdrawCue own seq entries = (entries, .ok) := by
  simp only [withdrawCue, h, hstate]

theorem withdrawCue_of_retired {reason : RetireReason} (h : findCue entries own seq = some e)
    (hstate : e.state = .retired reason) : withdrawCue own seq entries = (entries, .tooLate) := by
  simp only [withdrawCue, h, hstate]

end Withdrawals

theorem exec_withdraw_of_inside {s : State} {n : Byte} {rest : List TakenRecord} (h : s.Executes (.withdraw n) rest)
    (hunconfigured : s.member.station ≠ .unconfigured) (hready : s.member.station ≠ .ready)
    {entries : List CueEntry} {result : ResultCode}
    (hwithdraw : withdrawCue s.ownId n s.recordReports.cues.entries = (entries, result)) :
    exec .withdraw s = .next (State.answered
      { s.recordReports with cues := { s.recordReports.cues with entries := entries } } rest result 0x06 .none) := by
  have hown : s.recordReports.ownId = s.ownId := by simp [State.ownId]
  rw [exec_withdraw h, runWithdraw_of_inside (by simpa using hunconfigured) (by simpa using hready), hown, hwithdraw]
  rfl

/-- Settles O52: POST by the first check that fails, then by key and room; WITHDRAW by the entry that holds the key. -/
theorem postAndWithdrawAnswerByTheTable : Obligations.PostAndWithdrawAnswerByTheTable := by
  refine ⟨fun s p rest h => ⟨exec_post_of_other h, fun hstation => ⟨fun hbad => ?_,
    fun line action hline haction hmask hwidth hphase => ?_⟩⟩, fun s n rest h => ⟨fun hout => ?_,
    fun hunconfigured hready => ⟨fun hnone => ?_, fun e hheld => ?_⟩⟩⟩
  · exact exec_post_of_settled h hstation (postCue_badArg _ _ _ (postFields_eq_none hbad))
  · have hfields := postFields_eq_some hline haction hmask hwidth hphase
    refine ⟨fun hlead => ?_, fun hlead hhorizon => ?_, fun hlead hhorizon hcount => ?_, fun hlead hhorizon hcount => ?_⟩
    · exact exec_post_of_settled h hstation (postCue_tooSoon hfields hlead)
    · exact exec_post_of_settled h hstation (postCue_tooFar hfields hlead hhorizon)
    · exact exec_post_of_settled h hstation (postCue_quota hfields hlead hhorizon hcount)
    · have hpassed := postCue_of_passed (own := s.ownId) hfields hlead hhorizon hcount
      refine ⟨fun hkey => ?_, fun hnew => ?_⟩
      · rw [if_pos (findCue_isSome hkey)] at hpassed
        exact exec_post_of_settled h hstation hpassed
      · rw [findCue_eq_none hnew, if_neg (by simp)] at hpassed
        have hclock : s.settleCues.timer.clock = s.timer.clock := by simp
        have hexec := exec_post_of_settled h hstation hpassed
        revert hexec
        cases makeRoom s.L s.timer.clock ⟨p.dueRound, p.duePhase.toNat⟩ s.settleCues.cues.entries with
        | none => exact id
        | some made => rw [← hclock]; exact id
  · rw [exec_withdraw h, runWithdraw_of_outside (by simpa using hout)]
    rfl
  · exact exec_withdraw_of_inside h hunconfigured hready (withdrawCue_of_none hnone)
  · refine ⟨fun hstate => ?_, fun hstate => ?_, fun reason hstate => ?_⟩
    · exact exec_withdraw_of_inside h hunconfigured hready
        ((withdrawCue_of_pending hheld hstate).trans (by rw [updateCue_eq]; rfl))
    · exact exec_withdraw_of_inside h hunconfigured hready (withdrawCue_of_withdrawn hheld hstate)
    · exact exec_withdraw_of_inside h hunconfigured hready (withdrawCue_of_retired hheld hstate)

end Sys2Proof.Machine.Cueing
end

section
/-! PROOFS. Cues that fall due at the watched instant, and the firing reports recorded afterwards (R119, R120, R139, R140,
R142, R143, R146, R156). What dealing with a list of entries does to reports and lines is SharedTime's. -/

namespace Sys2Proof.Machine.Cueing

open Sys2Proof.Machine.SharedTime

/-! ## What is watched, and the group test (R119, R139, R140) -/

theorem watched_eq (s : State) : s.watched = s.cues.entries.filter fun e =>
    decide ((e.state = .pending ∨ e.state = .withdrawn) ∧
      ∀ r ∈ s.firing.reports, ¬ (r.origin = e.origin ∧ r.seq = e.seq)) := by
  refine List.filter_congr fun e _ => ?_
  rw [Bool.eq_iff_iff, decide_eq_true_eq, Bool.and_eq_true, active_iff]
  simp

/-- In a table in order the first entry watched is the earliest due (R107, R139). -/
theorem watched_head_earliest {s : State} {e : CueEntry} {rest : List CueEntry} (horder : s.CuesInOrder)
    (hwatched : s.watched = e :: rest) : ∀ x ∈ rest, instantDiff s.L e.due x.due ≤ 0 := by
  obtain ⟨hsorted, -, -⟩ := horder
  have hsub : (e :: rest).Sublist s.cues.entries := hwatched ▸ List.filter_sublist
  exact fun x hx => due_le_of_before (List.rel_of_pairwise_cons (hsorted.sublist hsub) hx)

theorem bitVec_and_ne_zero_iff {n : Nat} (a b : BitVec n) :
    a &&& b ≠ 0 ↔ ∃ g : Fin n, a.getLsbD g.val = true ∧ b.getLsbD g.val = true := by
  constructor
  · intro h
    by_contra hnone
    push Not at hnone
    refine h (BitVec.eq_of_getLsbD_eq fun i hi => ?_)
    simpa using hnone ⟨i, hi⟩
  · rintro ⟨g, ha, hb⟩ hzero
    have hbit : (a &&& b).getLsbD g.val = true := by rw [BitVec.getLsbD_and, ha, hb]; rfl
    simp [hzero] at hbit

theorem inGroup_iff (s : State) (mask : Byte) : s.inGroup mask = true ↔
    ∃ (c : ConfigRecord) (g : Fin 8), s.port.config = some c ∧
      c.mask.getLsbD g.val = true ∧ mask.getLsbD g.val = true := by
  unfold State.inGroup
  cases hconfig : s.port.config with
  | none => simp
  | some c =>
    rw [decide_eq_true_eq, bitVec_and_ne_zero_iff]
    simp

/-! ## Falling due (R139, R140, R142, R143, R156) -/

theorem endPulse_eq (l : ActionLine) : l.endPulse = { l with state := l.now, ending := false } := by
  obtain ⟨state, activeLow, ending⟩ := l
  cases ending <;> rfl

theorem endPulses_line (s : State) (n : Fin 4) : s.endPulses.firing.lines[n] =
    { s.firing.lines[n] with state := (s.firing.lines[n]).now, ending := false } := by
  simp [State.endPulses, FiringUnit.mapLines, endPulse_eq]

theorem endPulses_reports (s : State) : s.endPulses.firing.reports = s.firing.reports := rfl

/-- The power controller once the firing unit has appended a report (R154, R156). -/
def wokenForFiring (p : PowerController) : PowerController :=
  if p.state = .doze then { p with state := .starting, wake := none, lastCause := .firing, startAge := 0 } else p

theorem wokenForFiring_not_doze (p : PowerController) : (wokenForFiring p).state ≠ .doze := by
  unfold wokenForFiring
  split
  · simp
  · assumption

theorem dealWith_wakes (e : CueEntry) (lateness : Nat) (s : State) :
    (s.dealWith e lateness).power = wokenForFiring s.power := by
  unfold State.dealWith State.wakeFor wokenForFiring
  dsimp only
  rw [State.updFiring_power]
  split <;> rfl

/-- The first report wakes the station, the others find it awake. -/
theorem foldl_dealWith_wakes (e : CueEntry) (rest : List CueEntry) (s : State) :
    ((e :: rest).foldl (fun s x => s.dealWith x 0) s).power = wokenForFiring s.power := by
  have hfirst := dealWith_wakes e 0 s
  rw [List.foldl_cons, foldl_dealWith_power (by rw [hfirst]; exact wokenForFiring_not_doze _), hfirst]

/-- The entries at the clock's instant. -/
def dueAt (s : State) : List CueEntry := s.watched.filter fun x => decide (x.due = s.timer.clock)

theorem dueNow_of_due {s : State} {e : CueEntry} {rest : List CueEntry} (hcounted : s.timer.counted = true)
    (hwatched : s.watched = e :: rest) (hdue : e.due = s.timer.clock) : s.dueNow = dueAt s := by
  unfold State.dueNow dueAt
  rw [hwatched]
  exact if_pos ⟨hcounted, hdue⟩

theorem dueNow_of_not_due {s : State}
    (h : s.timer.counted = false ∨ ∀ e rest, s.watched = e :: rest → e.due ≠ s.timer.clock) : s.dueNow = [] := by
  unfold State.dueNow
  cases hwatched : s.watched with
  | nil => rfl
  | cons e rest =>
    refine if_neg fun ⟨hcounted, hdue⟩ => ?_
    rcases h with hmoved | hlater
    · simp [hmoved] at hcounted
    · exact hlater e rest hwatched hdue

theorem dueAt_eq_cons {s : State} {e : CueEntry} {rest : List CueEntry} (hwatched : s.watched = e :: rest)
    (hdue : e.due = s.timer.clock) : ∃ others, dueAt s = e :: others := by
  unfold dueAt
  rw [hwatched]
  exact ⟨_, List.filter_cons_of_pos (decide_eq_true hdue)⟩

theorem fallDue_of_not_due {s : State} (h : s.dueNow = []) : s.fallDue = s := by
  unfold State.fallDue
  rw [h]
  exact ite_self s

theorem fallDue_of_due {s : State} {e : CueEntry} {rest : List CueEntry} (hrunning : s.resetting = none)
    (hdue : s.dueNow = e :: rest) :
    s.fallDue = (e :: rest).foldl (fun s x => s.dealWith x 0) s.endPulses := by
  unfold State.fallDue
  rw [if_pos hrunning, hdue]

theorem fires_endPulses (s : State) : fires s.endPulses = fires s := by
  unfold fires
  rw [inGroup_congr (s := s) (by simp)]

theorem reportOf_endPulses (s : State) : reportOf s.endPulses = reportOf s := by
  unfold reportOf
  rw [fires_endPulses]

/-- What CUE_FALLS_DUE does at the watched instant: reports, lines and waking. -/
theorem fallDue_effect {s : State} {e : CueEntry} {rest : List CueEntry} (hrunning : s.resetting = none)
    (hcounted : s.timer.counted = true) (hwatched : s.watched = e :: rest) (hdue : e.due = s.timer.clock) :
    s.fallDue.firing.reports = s.firing.reports ++ (dueAt s).map (fun x => reportOf s x 0) ∧
    s.fallDue.power = wokenForFiring s.power ∧
    ∀ n : Fin 4, s.fallDue.firing.lines[n] = { s.firing.lines[n] with
      ending := false
      state := ((dueAt s).filter fun x => fires s x && decide (x.line = n)).foldl
        (fun l x => applyAction x.action x.width.toNat l) (s.firing.lines[n]).now } := by
  obtain ⟨others, hcons⟩ := dueAt_eq_cons hwatched hdue
  have hnow : s.dueNow = e :: others := (dueNow_of_due hcounted hwatched hdue).trans hcons
  rw [fallDue_of_due hrunning hnow, hcons]
  refine ⟨?reports, ?power, fun n => ?line⟩
  case reports => rw [foldl_dealWith_reports fun _ => 0, endPulses_reports, reportOf_endPulses]
  case power => rw [foldl_dealWith_wakes]; simp
  case line => rw [foldl_dealWith_line fun _ => 0, endPulses_line, fires_endPulses]

/-- What falls due concerns firing unit and power controller only. -/
theorem fallDue_eq (s : State) : s.fallDue = { s with firing := s.fallDue.firing, power := s.fallDue.power } := by
  have h := State.fallDue_frame s
  revert h
  generalize s.fallDue = t
  rintro ⟨htimer, hline, hframe, hmember, hsync, hcues, hport, hresetting, hcount, hpending⟩
  rw [← htimer, ← hline, ← hframe, ← hmember, ← hsync, ← hcues, ← hport, ← hresetting, ← hcount, ← hpending]

theorem exec_cueFallsDue (s : State) : exec .cueFallsDue s = .next s.fallDue := rfl

/-! ## Recording reports (R120, R146) -/

theorem exec_recordFiringReport {s : State} (ha : s.Awake) :
    exec .recordFiringReport s = .next s.recordReport := by
  show Host.Outcome.next (if s.Awake then s.recordReport else s) = _
  rw [if_pos ha]

theorem exec_recordFiringReport_of_idle {s : State} (h : s.power.state ≠ .awake ∨ s.firing.reports = []) :
    exec .recordFiringReport s = .next s := by
  show Host.Outcome.next (if s.Awake then s.recordReport else s) = _
  rcases h with hasleep | hnone
  · rw [if_neg fun ha => hasleep ha.2]
  · rw [State.recordReport, hnone, ite_self]

theorem recordReport_of_cons {s : State} {r : FiringReport} {rest : List FiringReport}
    (h : s.firing.reports = r :: rest) : s.recordReport = { s with
      firing := { s.firing with reports := rest }
      cues := { s.cues with entries := s.cues.entries.map fun e =>
        if e.origin = r.origin ∧ e.seq = r.seq then { e with state := .retired r.outcome.reason } else e }
      port := { s.port with
        events := if r.outcome = .fired then
          appendEvent s.port.events ⟨.cueFired r.origin r.seq r.lateness, s.timer.clock⟩
        else s.port.events } } := by
  rw [← updateCue_eq _ _ _ fun e => { e with state := .retired r.outcome.reason }]
  unfold State.recordReport
  rw [h]
  cases hout : r.outcome <;> simp [hout, State.queue, State.updPort, State.updCues, State.updFiring]

/-- Recording reports one row after the other, as long as the station is AWAKE. -/
theorem runRows_recordFiringReport (n : Nat) {s : State} (ha : s.Awake) :
    runRows (List.replicate n .recordFiringReport) s = .next (State.recordReport^[n] s) := by
  induction n generalizing s with
  | zero => rfl
  | succ n ih =>
    have hawake : s.recordReport.Awake := ⟨by simp [ha.1], by simp [ha.2]⟩
    rw [List.replicate_succ, runRows, exec_recordFiringReport ha]
    exact ih hawake

/-- Settles O42: at the watched instant the fold over the entries there, and a report recorded by its outcome. -/
theorem cuesFireAndAreRecorded : Obligations.CuesFireAndAreRecorded := by
  refine ⟨fun s e rest hrunning hcounted hwatched hdue => ?_, fun s h => ?_, fun s r rest ha hreports => ?_,
    fun s => exec_recordFiringReport_of_idle, fun s ha => ⟨runRows_recordFiringReport _ ha, _, rfl, rfl⟩,
    watched_eq, fun s e rest => watched_head_earliest, inGroup_iff⟩
  · exact ⟨_, exec_cueFallsDue s, fallDue_eq s, fallDue_effect hrunning hcounted hwatched hdue⟩
  · rw [exec_cueFallsDue, fallDue_of_not_due (dueNow_of_not_due h)]
  · rw [exec_recordFiringReport ha, recordReport_of_cons hreports]
    cases r.outcome <;> rfl

end Sys2Proof.Machine.Cueing
end

section
/-! PROOFS. The carry selection: which entries are eligible, the items chosen, and the forward counts it leaves
(R128 to R131). -/

namespace Sys2Proof.Machine.Cueing

/-! ## Eligible entries (R128) -/

theorem eligible_iff {e : CueEntry} : e.eligible = true ↔
    (e.state = .pending ∨ e.state = .withdrawn) ∧ e.forward < if e.own then 4 else 2 := by
  unfold CueEntry.eligible CueEntry.forwardLimit
  rw [Bool.and_eq_true, active_iff, decide_eq_true_eq]

/-! ## One entry of the table after the other (R129, R131) -/

theorem selectCarry_zero (entries : List CueEntry) : selectCarry 0 entries = ([], entries) := by
  cases entries <;> rfl

theorem selectCarry_of_eligible {e : CueEntry} (h : e.eligible = true) (n : Nat) (rest : List CueEntry) :
    selectCarry (n + 1) (e :: rest) =
      (e.toItem :: (selectCarry n rest).1, { e with forward := e.forward + 1 } :: (selectCarry n rest).2) := by
  rw [selectCarry, if_pos h]

theorem selectCarry_of_not_eligible {e : CueEntry} (h : ¬ e.eligible = true) (n : Nat) (rest : List CueEntry) :
    selectCarry (n + 1) (e :: rest) = ((selectCarry (n + 1) rest).1, e :: (selectCarry (n + 1) rest).2) := by
  rw [selectCarry, if_neg h]

/-! ## The whole selection, for any number of items -/

theorem selectCarry_items (n : Nat) (entries : List CueEntry) :
    (selectCarry n entries).1 = ((entries.filter CueEntry.eligible).take n).map CueEntry.toItem := by
  induction n, entries using selectCarry.induct with
  | case1 n => simp [selectCarry]
  | case2 entries => simp [selectCarry_zero]
  | case3 n e rest h _ _ _ ih => simp [selectCarry_of_eligible h, h, ih]
  | case4 n e rest h _ _ _ ih => simp [selectCarry_of_not_eligible h, h, ih]

theorem selectCarry_length (n : Nat) (entries : List CueEntry) :
    (selectCarry n entries).2.length = entries.length := by
  induction n, entries using selectCarry.induct with
  | case1 n => simp [selectCarry]
  | case2 entries => simp [selectCarry_zero]
  | case3 n e rest h _ _ _ ih => simp [selectCarry_of_eligible h, ih]
  | case4 n e rest h _ _ _ ih => simp [selectCarry_of_not_eligible h, ih]

/-- An entry is counted once more where it is eligible and fewer than `n` eligible ones stand before it. -/
theorem selectCarry_getElem? (n : Nat) (entries : List CueEntry) (i : Nat) (e : CueEntry)
    (he : entries[i]? = some e) : (selectCarry n entries).2[i]? = some
      (if e.eligible = true ∧ ((entries.take i).filter CueEntry.eligible).length < n
       then { e with forward := e.forward + 1 } else e) := by
  induction n, entries using selectCarry.induct generalizing i with
  | case1 n => simp at he
  | case2 entries => simp [selectCarry_zero, he]
  | case3 n x rest h _ _ _ ih =>
    rw [selectCarry_of_eligible h]
    cases i with
    | zero =>
      obtain rfl : x = e := by simpa using he
      simp [h]
    | succ i => simpa [h] using ih i he
  | case4 n x rest h _ _ _ ih =>
    rw [selectCarry_of_not_eligible h]
    cases i with
    | zero =>
      obtain rfl : x = e := by simpa using he
      simp [h]
    | succ i => simpa [h] using ih i he

/-- Settles O11: each part for a selection of any size, by the recursion along the table. -/
theorem carrySelectionTakesTheFirstThreeEligible : Obligations.CarrySelectionTakesTheFirstThreeEligible :=
  ⟨fun _ => eligible_iff, fun _ => rfl, fun entries =>
    ⟨selectCarry_items 3 entries, selectCarry_length 3 entries, selectCarry_getElem? 3 entries⟩⟩

end Sys2Proof.Machine.Cueing
end

section
/-! PROOFS. The action lines: one line changed at a time, PULSE_END, and a pulse counted down from one LF period to the
next (R141, R142). -/

namespace Sys2Proof.Machine.Cueing

/-! ## One line changed (R141, R142) -/

theorem updLine_line (u : FiringUnit) (n j : Fin 4) (f : ActionLine → ActionLine) :
    (u.updLine n f).lines[j] = if j = n then f u.lines[n] else u.lines[j] := by
  by_cases hj : j = n
  · subst hj
    simp [FiringUnit.updLine]
  · have hval : n.val ≠ j.val := fun h => hj (Fin.ext h.symm)
    simp [FiringUnit.updLine, Vector.getElem_set_ne, hj, hval]

theorem exec_pulseEnd (n : Fin 4) (s : State) :
    exec (.pulseEnd n) s = .next (s.updFiring fun u => u.updLine n ActionLine.endPulse) := rfl

theorem endPulse_of_ending {l : ActionLine} (h : l.ending = true) :
    l.endPulse = { l with state := .idle, ending := false } := if_pos h

theorem endPulse_of_not_ending {l : ActionLine} (h : ¬ l.ending = true) : l.endPulse = l := if_neg h

/-- Ending the pulse of one line clears that line's mark, where it has one, and touches no other line. -/
theorem updLine_endPulse_line (u : FiringUnit) (n j : Fin 4) :
    (u.updLine n ActionLine.endPulse).lines[j] =
      if j = n ∧ (u.lines[n]).ending = true then { u.lines[n] with state := .idle, ending := false }
      else u.lines[j] := by
  rw [updLine_line]
  by_cases hj : j = n
  · subst hj
    by_cases hending : (u.lines[j]).ending = true
    · rw [if_pos rfl, if_pos ⟨rfl, hending⟩, endPulse_of_ending hending]
    · rw [if_pos rfl, if_neg fun h => hending h.2, endPulse_of_not_ending hending]
  · rw [if_neg hj, if_neg fun h => hj h.1]

/-! ## A pulse counted down (R142) -/

theorem countDown_of_last {l : ActionLine} {r : Nat} (h : l.state = .pulsing r) (hlast : r ≤ 1) :
    l.countDown = { l with ending := true } := by
  rw [ActionLine.countDown, h]
  exact if_pos hlast

theorem countDown_of_more {l : ActionLine} {r : Nat} (h : l.state = .pulsing r) (hmore : 1 < r) :
    l.countDown = { l with state := .pulsing (r - 1) } := by
  rw [ActionLine.countDown, h]
  exact if_neg (by omega)

/-- A pulse of width `w` after `n` LF periods with no action: each takes one off the count, down to 1; the `w`-th puts
the mark instead, and from then on the line stands as it is. -/
theorem countDown_iterate {l : ActionLine} {w : Nat} (hw : 1 ≤ w) (hl : l.state = .pulsing w) (n : Nat) :
    ActionLine.countDown^[n] l =
      if n < w then { l with state := .pulsing (w - n) } else { l with state := .pulsing 1, ending := true } := by
  induction n with
  | zero => rw [if_pos (by omega), Nat.sub_zero, ← hl]; rfl
  | succ n ih =>
    rw [Function.iterate_succ_apply', ih]
    rcases Nat.lt_trichotomy (n + 1) w with hmore | hlast | hpast
    · rw [if_pos (by omega), if_pos hmore, countDown_of_more rfl (by omega), Nat.sub_sub]
    · have hone : w - n = 1 := by omega
      rw [if_pos (by omega), if_neg (by omega), hone, countDown_of_last rfl le_rfl]
    · rw [if_neg (by omega), if_neg (by omega), countDown_of_last rfl le_rfl]

/-- A pulse of width `w` is active to the pin and to every action for exactly `w` LF periods (R142, log 23). -/
theorem countDown_iterate_now {l : ActionLine} {w : Nat} (hw : 1 ≤ w) (hl : l.state = .pulsing w)
    (hending : l.ending = false) (n : Nat) :
    (ActionLine.countDown^[n] l).now = if n < w then .pulsing (w - n) else .idle := by
  rw [countDown_iterate hw hl]
  split
  · simp [ActionLine.now, hending]
  · rfl

/-- Settles O43: the table case by case, PULSE_END by the change of one line, a pulse's width by its iterated count. -/
theorem linesFollowTheActionTable : Obligations.LinesFollowTheActionTable :=
  ⟨fun _ _ _ => ⟨rfl, rfl, rfl, rfl, rfl, rfl, rfl, rfl⟩, updLine_line,
    fun s n => ⟨_, exec_pulseEnd n s, rfl, rfl, updLine_endPulse_line s.firing n⟩,
    fun _ _ n hw hl hending => countDown_iterate_now hw hl hending n⟩

end Sys2Proof.Machine.Cueing
end

section
/-! PROOFS. The host port's transactions: SELn asserted, whole bytes out of the bits on SDI, the bits shifted out on
SDO, and the three rows on them (R154, R155, R159, R161, R163, R164). -/

namespace Sys2Proof.Machine.Transactions

/-! ## SELn asserted (R154, R155) -/

theorem assertSelect_eq (s : State) : s.assertSelect =
    { s with
      port := { s.port with selected := true }
      power := if s.power.state = .doze then
        { s.power with state := .starting, wake := none, lastCause := .host, startAge := 0 }
        else s.power } := by
  unfold State.assertSelect State.wakeFor
  rw [State.updPort_power]
  split <;> rfl

theorem assertSelect_selected (s : State) : s.assertSelect.port.selected = true := by
  rw [assertSelect_eq]

theorem inSelect_of_selected {s : State} (h : s.port.selected = true) : s.inSelect = s := if_pos h

/-- A transaction not seen to begin begins as one that was (log 15). -/
theorem inSelect_of_not_selected {s : State} (h : s.port.selected = false) : s.inSelect = s.assertSelect :=
  if_neg (by simp [h])

theorem assertSelect_inSelect (s : State) : s.assertSelect.inSelect = s.assertSelect :=
  inSelect_of_selected (assertSelect_selected s)

/-! ## Bits on SDI and on SDO (R159, R164) -/

theorem lowBit_getElem (b : Bool) {i : Nat} (hi : i < 8) :
    (if b = true then 1#8 else 0#8)[i] = (b && decide (i = 0)) := by
  cases b <;> simp

/-- A byte is read back from its bits: bit i has been shifted up i places since it came in. -/
theorem bitsByte_byteBits (b : Byte) : bitsByte (byteBits b) = b := by
  ext i hi
  interval_cases i <;> simp [bitsByte, byteBits, lowBit_getElem]

theorem wholeBytes_of_short {bits : List Bool} (h : bits.length < 8) : wholeBytes bits = [] := by
  unfold wholeBytes
  split
  · simp only [List.length_cons] at h
    omega
  · rfl

theorem wholeBytes_byteBits_append (b : Byte) (bits : List Bool) :
    wholeBytes (byteBits b ++ bits) = b :: wholeBytes bits :=
  congrArg (· :: wholeBytes bits) (bitsByte_byteBits b)

/-- Bytes sent bit by bit are read back whole; the bits after the last whole byte are discarded (R159). -/
theorem wholeBytes_flatMap_append (bytes : List Byte) {bits : List Bool} (h : bits.length < 8) :
    wholeBytes (bytes.flatMap byteBits ++ bits) = bytes := by
  induction bytes with
  | nil => exact wholeBytes_of_short h
  | cons b rest ih => rw [List.flatMap_cons, List.append_assoc, wholeBytes_byteBits_append, ih]

theorem length_flatMap_byteBits (bytes : List Byte) : (bytes.flatMap byteBits).length = 8 * bytes.length := by
  simp [byteBits, List.length_flatMap, Nat.mul_comm]

/-- Bit i on SDO is bit i of the record, or filler past its end. -/
theorem shiftOut_eq (record : List Bool) (clocked : Nat) :
    shiftOut record clocked = (List.range clocked).map fun i => (record[i]?).getD false := by
  unfold shiftOut
  apply List.ext_getElem
  · simp only [List.length_take, List.length_append, List.length_replicate, List.length_map, List.length_range]
    omega
  · intro i hi hr
    rcases Nat.lt_or_ge i record.length with hin | hpast
    · simp [hin]
    · simp [List.getElem_append_right hpast, List.getElem?_eq_none hpast]

/-! ## What a release does (R159 to R161, R164) -/

theorem release_of_fetching {p : HostPort} {left : List Bool} (h : p.fetching = some left) (sdi : List Bool) :
    p.release sdi =
      { p with selected := false, fetching := none, sdo := p.sdo ++ shiftOut left sdi.length } := by
  unfold HostPort.release
  rw [h]
  rfl

theorem release_of_no_byte {p : HostPort} {sdi : List Bool} (h : p.fetching = none) (hbytes : wholeBytes sdi = []) :
    p.release sdi = { p with selected := false, sdo := [] } := by
  unfold HostPort.release
  rw [h, hbytes]

theorem release_of_bytes {p : HostPort} {sdi : List Bool} {code : Byte} {rest : List Byte} (h : p.fetching = none)
    (hbytes : wholeBytes sdi = code :: rest) :
    p.release sdi =
      if code = fetchCode then p.fetch (sdi.length - 8) true
      else { p with
        selected := false
        sdo := List.replicate sdi.length false
        taken := if p.taken.length < 4 then p.taken ++ [judgeRecord code rest] else p.taken
        lost := if p.taken.length < 4 then p.lost else true } := by
  unfold HostPort.release HostPort.take
  rw [h, hbytes]
  dsimp only
  split
  · rfl
  · split <;> rfl

theorem fetch_eq {p : HostPort} (h : p.selected = true) (clocked : Nat) (released : Bool) :
    let record := (p.response.getD Response.noAnswer).bytes.flatMap byteBits
    p.fetch clocked released =
      { p with response := none, sdo := shiftOut record clocked, selected := !released,
               fetching := if released then none else some (record.drop clocked) } := by
  cases released with
  | true => rfl
  | false => simp [HostPort.fetch, h]

/-! ## The rows (R154, R155, R159, R161, R164) -/

theorem exec_selnAsserted {s : State} (h : s.resetting = none) : exec .selnAsserted s = .next s.assertSelect :=
  congrArg Host.Outcome.next (if_pos h)

theorem exec_selnAsserted_of_resetting {s : State} (h : s.resetting ≠ none) : exec .selnAsserted s = .next s :=
  congrArg Host.Outcome.next (if_neg h)

theorem exec_commandTaken {s : State} (h : s.resetting = none) (sdi : List Bool) :
    exec (.commandTaken sdi) s = .next (s.inSelect.updPort fun p => p.release sdi) :=
  congrArg Host.Outcome.next (if_pos h)

theorem exec_commandTaken_of_selected {s : State} (h : s.resetting = none) (hsel : s.port.selected = true)
    (sdi : List Bool) : exec (.commandTaken sdi) s = .next { s with port := s.port.release sdi } := by
  rw [exec_commandTaken h, inSelect_of_selected hsel]
  rfl

theorem exec_fetch {s : State} (h : s.resetting = none) (hfetch : s.port.fetching = none) (part : FetchPart) :
    exec (.fetch part) s = .next (s.inSelect.updPort fun p => p.fetch part.clocked part.released) :=
  congrArg Host.Outcome.next (if_pos ⟨h, hfetch⟩)

theorem exec_fetch_of_selected {s : State} (h : s.resetting = none) (hsel : s.port.selected = true)
    (hfetch : s.port.fetching = none) (part : FetchPart) :
    exec (.fetch part) s = .next { s with port := s.port.fetch part.clocked part.released } := by
  rw [exec_fetch h hfetch, inSelect_of_selected hsel]
  rfl

theorem exec_fetch_of_fetching {s : State} (hfetch : s.port.fetching ≠ none) (part : FetchPart) :
    exec (.fetch part) s = .next s :=
  congrArg Host.Outcome.next (if_neg fun hboth => hfetch hboth.2)

/-- A row that begins its own transaction does what it does after SELN_ASSERTED (log 15). -/
theorem exec_after_selnAsserted {s : State} (h : s.resetting = none) (hsel : s.port.selected = false)
    (hfetch : s.port.fetching = none) (sdi : List Bool) (part : FetchPart) :
    exec (.commandTaken sdi) s = exec (.commandTaken sdi) s.assertSelect ∧
      exec (.fetch part) s = exec (.fetch part) s.assertSelect := by
  have hu : s.assertSelect.resetting = none := by simp [h]
  have hufetch : s.assertSelect.port.fetching = none := by simp [hfetch]
  rw [exec_commandTaken h, exec_commandTaken hu, exec_fetch h hfetch, exec_fetch hu hufetch,
    inSelect_of_not_selected hsel, assertSelect_inSelect]
  exact ⟨rfl, rfl⟩

/-- A transaction with some whole byte is the COMMAND or the FETCH its first byte says (R159, R161, R164). -/
theorem exec_commandTaken_of_bytes {s : State} (h : s.resetting = none) (hsel : s.port.selected = true)
    (hfetch : s.port.fetching = none) (code : Byte) (params : List Byte) {bits : List Bool} (hbits : bits.length < 8) :
    exec (.commandTaken ((code :: params).flatMap byteBits ++ bits)) s =
      if code = fetchCode then exec (.fetch ⟨8 * params.length + bits.length, true⟩) s
      else .next { s with port := { s.port with
        selected := false
        sdo := List.replicate (8 * (params.length + 1) + bits.length) false
        taken := if s.port.taken.length < 4 then s.port.taken ++ [judgeRecord code params]
          else s.port.taken
        lost := if s.port.taken.length < 4 then s.port.lost else true } } := by
  have hlength : ((code :: params).flatMap byteBits ++ bits).length = 8 * (params.length + 1) + bits.length := by
    rw [List.length_append, length_flatMap_byteBits, List.length_cons]
  have hclocked : 8 * (params.length + 1) + bits.length - 8 = 8 * params.length + bits.length := by omega
  rw [exec_commandTaken_of_selected h hsel, exec_fetch_of_selected h hsel hfetch,
    release_of_bytes hfetch (wholeBytes_flatMap_append (code :: params) hbits), hlength, hclocked]
  split <;> rfl

/-- Settles O47: SELN_ASSERTED by what it writes, the other rows by what a release or a FETCH does to the port. -/
theorem transactionsOnTheHostPort : Obligations.TransactionsOnTheHostPort := by
  refine ⟨fun s h => ?asserted, fun s h => exec_selnAsserted_of_resetting h,
    fun s sdi clocked released h hsel hfetch =>
      ⟨_, exec_selnAsserted h, exec_after_selnAsserted h hsel hfetch sdi ⟨clocked, released⟩⟩,
    fun s code params bits h hsel hfetch hbits => exec_commandTaken_of_bytes h hsel hfetch code params hbits,
    fun s bits h hsel hfetch hbits => ?noByte, fun s clocked released h hsel hfetch => ?fetch,
    fun s left bits h hsel hfetch => ?goesOn,
    fun s clocked released hfetch => exec_fetch_of_fetching hfetch ⟨clocked, released⟩⟩
  case asserted => rw [exec_selnAsserted h, assertSelect_eq]
  case noByte => rw [exec_commandTaken_of_selected h hsel, release_of_no_byte hfetch (wholeBytes_of_short hbits)]
  case fetch =>
    rw [exec_fetch_of_selected h hsel hfetch, fetch_eq hsel, shiftOut_eq]
    cases s.port.response <;> rfl
  case goesOn => rw [exec_commandTaken_of_selected h hsel, release_of_fetching hfetch, shiftOut_eq]

end Sys2Proof.Machine.Transactions
end

section
/-! PROOFS. The event queue by itself: what an append makes of its newest record, its bounds kept by an append and by
taking the oldest record, and the events the cue table gives, none of which is an OVERFLOW (R170, R171). -/

namespace Sys2Proof.Machine

/-! ## An append by the newest record (R171) -/

/-- An OVERFLOW that is the newest record counts what would follow it. -/
theorem appendEvent_of_overflow (events : List EventRecord) (n : Nat) (clock : Instant) (e : EventRecord) :
    appendEvent (events ++ [⟨.overflow n, clock⟩]) e = events ++ [⟨.overflow (min 255 (n + 1)), clock⟩] := by
  simp [appendEvent]

theorem appendEvent_of_other {events : List EventRecord}
    (h : ∀ n clock, events.getLast? ≠ some ⟨.overflow n, clock⟩) (e : EventRecord) :
    appendEvent events e = if events.length < 15 then events ++ [e] else events ++ [⟨.overflow 1, e.clock⟩] := by
  unfold appendEvent
  split
  next n clock hlast => exact absurd hlast (h n clock)
  next => rfl

/-! ## The bounds (R171) -/

theorem isOverflow_iff {k : EventKind} : k.isOverflow = true ↔ ∃ n, k = .overflow n := by
  cases k <;> simp [EventKind.isOverflow]

theorem isOverflow_eq_false {k : EventKind} (h : ∀ n, k ≠ .overflow n) : k.isOverflow = false := by
  by_contra hover
  obtain ⟨n, hn⟩ := isOverflow_iff.mp (Bool.not_eq_false _ ▸ hover)
  exact h n hn

/-- A queue with a newest record: the others are no OVERFLOW and at most 15, and with 15 of them the newest is one. -/
theorem eventsOk_concat {init : List EventRecord} {last : EventRecord} :
    eventsOk (init ++ [last]) ↔
      init.length ≤ 15 ∧ (∀ e ∈ init, e.kind.isOverflow = false) ∧
      (init.length = 15 → last.kind.isOverflow = true) ∧ ∀ n, last.kind = .overflow n → 1 ≤ n ∧ n ≤ 255 := by
  unfold eventsOk
  simp only [List.length_append, List.length_singleton, List.dropLast_concat, List.getLast?_concat,
    Option.some.injEq, exists_eq_left', Nat.reduceEqDiff, Nat.reduceLeDiff]
  constructor
  · rintro ⟨hlength, hothers, hfull, hcounts⟩
    exact ⟨by omega, hothers, fun h => hfull h, hcounts last (by simp)⟩
  · rintro ⟨hlength, hothers, hfull, hcount⟩
    refine ⟨by omega, hothers, fun h => hfull h, fun e he n hn => ?_⟩
    rcases List.mem_append.mp he with hin | hlast
    · exact absurd (isOverflow_iff.mpr ⟨n, hn⟩) (by simp [hothers e hin])
    · exact hcount n (List.mem_singleton.mp hlast ▸ hn)

theorem eventsOk_nil : eventsOk [] := by
  simp [eventsOk]

/-- With no OVERFLOW as the newest record, no record is one, and at most 15 are held. -/
theorem eventsOk_of_no_overflow {events : List EventRecord} (h : eventsOk events)
    (hlast : ∀ n clock, events.getLast? ≠ some ⟨.overflow n, clock⟩) :
    events.length ≤ 15 ∧ ∀ e ∈ events, e.kind.isOverflow = false := by
  rcases List.eq_nil_or_concat' events with rfl | ⟨init, last, rfl⟩
  · simp
  · obtain ⟨hlength, hothers, hfull, -⟩ := eventsOk_concat.mp h
    have hnewest : last.kind.isOverflow = false :=
      isOverflow_eq_false fun n hn => hlast n last.clock (by rw [List.getLast?_concat, ← hn])
    have hroom : init.length ≠ 15 := fun h15 => by simp [hfull h15] at hnewest
    refine ⟨by rw [List.length_append, List.length_singleton]; omega, fun e he => ?_⟩
    rcases List.mem_append.mp he with hin | heq
    · exact hothers e hin
    · exact List.mem_singleton.mp heq ▸ hnewest

/-- Appending an event that is no OVERFLOW keeps the bounds. -/
theorem eventsOk_appendEvent {events : List EventRecord} {e : EventRecord} (h : eventsOk events)
    (he : ∀ n, e.kind ≠ .overflow n) : eventsOk (appendEvent events e) := by
  by_cases hover : ∃ n clock, events.getLast? = some ⟨.overflow n, clock⟩
  · obtain ⟨n, clock, hlast⟩ := hover
    obtain ⟨init, rfl⟩ := List.getLast?_eq_some_iff.mp hlast
    obtain ⟨hlength, hothers, -, -⟩ := eventsOk_concat.mp h
    rw [appendEvent_of_overflow, eventsOk_concat]
    refine ⟨hlength, hothers, fun _ => rfl, fun m hm => ?_⟩
    cases hm
    omega
  · push Not at hover
    obtain ⟨hlength, hnone⟩ := eventsOk_of_no_overflow h hover
    rw [appendEvent_of_other hover]
    split
    · exact eventsOk_concat.mpr ⟨hlength, hnone, fun h15 => by omega, fun n hn => absurd hn (he n)⟩
    · refine eventsOk_concat.mpr ⟨hlength, hnone, fun _ => rfl, fun n hn => ?_⟩
      cases hn
      omega

/-- Taking the oldest record away keeps the bounds (R170). -/
theorem eventsOk_of_cons {e : EventRecord} {events : List EventRecord} (h : eventsOk (e :: events)) :
    eventsOk events := by
  rcases List.eq_nil_or_concat' events with rfl | ⟨init, last, rfl⟩
  · exact eventsOk_nil
  · obtain ⟨hlength, hothers, -, hcount⟩ := eventsOk_concat.mp (List.cons_append ▸ h)
    rw [List.length_cons] at hlength
    exact eventsOk_concat.mpr
      ⟨by omega, fun x hx => hothers x (List.mem_cons_of_mem e hx), fun h15 => by omega, hcount⟩

/-! ## The events of the cue table (R111, R114 to R118, R122) -/

theorem makeRoom_events {L : Nat} {now due : Instant} {entries room : List CueEntry} {events : List EventKind}
    (h : makeRoom L now due entries = some (room, events)) : ∀ k ∈ events, ∀ n, k ≠ .overflow n := by
  unfold makeRoom at h
  repeat' split at h
  all_goals cases h <;> simp

theorem postCue_events (L : Nat) (now : Instant) (own : Byte) (p : PostParams) (t : CueTable) :
    ∀ k ∈ (postCue L now own p t).2.1, ∀ n, k ≠ .overflow n := by
  unfold postCue
  dsimp only
  repeat' split
  case h_2 hroom => exact makeRoom_events hroom
  all_goals simp

theorem takeCarryItem_events (L : Nat) (now : Instant) (own : Byte) (i : CarryItem) (entries : List CueEntry) :
    ∀ k ∈ (takeCarryItem L now own i entries).2, ∀ n, k ≠ .overflow n := by
  unfold takeCarryItem
  dsimp only
  split
  · simp
  · split
    · repeat' split
      all_goals simp
    · split
      next hroom => exact makeRoom_events hroom
      next => simp

theorem keepOrClear_events (L : Nat) (now : Instant) (d : Int) (entries : List CueEntry) :
    ∀ k ∈ (keepOrClear L now d entries).2.1, ∀ n, k ≠ .overflow n := by
  unfold keepOrClear
  split
  · intro k hk
    obtain ⟨e, -, rfl⟩ := List.mem_map.mp hk
    simp
  · simp

end Sys2Proof.Machine
end

section
/-! PROOFS. The bounds of event queue and taken list through the operations of the blocks (R161, R171). An operation
either leaves the host port or queues events that are no OVERFLOW; each lemma goes along the operation's own steps. -/

namespace Sys2Proof.Machine

/-! ## Queueing (R171) -/

theorem State.PortOk.of_port {s t : State} (h : s.PortOk) (hport : t.port = s.port) : t.PortOk := by
  unfold State.PortOk
  rw [hport]
  exact h

theorem State.PortOk.updMember {s : State} (h : s.PortOk) (f : Membership → Membership) : (s.updMember f).PortOk :=
  h.of_port rfl

theorem State.PortOk.queue {s : State} (h : s.PortOk) (k : EventKind) (hk : ∀ n, k ≠ .overflow n := by simp) :
    (s.queue k).PortOk := by
  obtain ⟨hevents, htaken⟩ := h
  exact ⟨eventsOk_appendEvent hevents hk, htaken⟩

theorem State.PortOk.queueAll {s : State} (h : s.PortOk) {ks : List EventKind}
    (hks : ∀ k ∈ ks, ∀ n, k ≠ .overflow n) : (s.queueAll ks).PortOk := by
  induction ks generalizing s with
  | nil => exact h
  | cons k ks ih =>
    obtain ⟨hk, hrest⟩ := List.forall_mem_cons.mp hks
    exact ih (h.queue k hk) hrest

/-! ## Membership (R63 to R65, R76, R77, R82, R83, R86) -/

theorem State.PortOk.losePeer {s : State} (h : s.PortOk) (p : PeerEntry) (reason : LostReason) :
    (s.losePeer p reason).PortOk := by
  refine State.PortOk.queue ?_ _
  split
  · exact (h.updMember _).updMember _
  · exact h.updMember _

theorem State.PortOk.foldl_losePeer {s : State} (h : s.PortOk) (l : List PeerEntry) (reason : LostReason) :
    (l.foldl (fun s p => s.losePeer p reason) s).PortOk :=
  foldl_keeps (P := State.PortOk) (fun _ p h => h.losePeer p reason) l h

theorem State.PortOk.drawTarget {s : State} (h : s.PortOk) : s.drawTarget.PortOk := by
  unfold State.drawTarget
  split
  · exact (h.queue .cellFull).of_port (by simp)
  · exact h.updMember _

theorem State.PortOk.enterClaiming {s : State} (h : s.PortOk) : s.enterClaiming.PortOk :=
  State.PortOk.drawTarget (h.of_port (by simp))

theorem State.PortOk.redrawTarget {s : State} (h : s.PortOk) : s.redrawTarget.PortOk :=
  State.PortOk.drawTarget (h.of_port (by simp))

theorem State.PortOk.yieldSlot {s : State} (h : s.PortOk) : s.yieldSlot.PortOk := by
  unfold State.yieldSlot
  split
  next k _ =>
    have hreleased : ((s.updMember fun m => m.release k none).withdrawFrame .beacon).PortOk := h.of_port (by simp)
    exact (hreleased.queue (.yielded k)).of_port (by simp)
  next => exact h

theorem State.PortOk.takeStrike {s : State} (h : s.PortOk) (round : Round) (reporter : Option Byte) :
    (s.takeStrike round reporter).PortOk := by
  unfold State.takeStrike
  dsimp only
  split
  next => exact h
  next k _ =>
    have hmarked := (h.updMember fun m => m.markStrike s.timer.clock.round round).queue (.strike k reporter)
    repeat' split
    · exact hmarked.yieldSlot
    · exact hmarked
    · exact h

/-! ## What falls due, and entry into READY (R90, R91, R120) -/

theorem State.PortOk.recordReport {s : State} (h : s.PortOk) : s.recordReport.PortOk := by
  unfold State.recordReport
  split
  · exact h
  · dsimp only
    split
    · exact State.PortOk.queue (h.of_port rfl) _
    all_goals exact h.of_port rfl

theorem State.PortOk.recordReports {s : State} (h : s.PortOk) : s.recordReports.PortOk :=
  iterate_keeps (P := State.PortOk) (fun _ h => h.recordReport) _ h

theorem State.PortOk.settleCues {s : State} (h : s.PortOk) : s.settleCues.PortOk :=
  State.PortOk.recordReports (h.of_port (by simp))

theorem State.PortOk.enterReady {s : State} (h : s.PortOk) : s.enterReady.PortOk :=
  h.settleCues.of_port (by simp [State.enterReady])

theorem State.PortOk.completeLeave {s : State} (h : s.PortOk) : s.completeLeave.PortOk :=
  h.enterReady.queue .left

/-! ## The seam point (R84, R85, R89, R94, R101 to R104) -/

theorem State.PortOk.moveToSurvey {s : State} (h : s.PortOk) (c : Candidate) : (s.moveToSurvey c).PortOk :=
  State.PortOk.queue (h.of_port (by simp)) _

theorem State.PortOk.holdTests {s : State} (h : s.PortOk) : s.holdTests.PortOk := by
  unfold State.holdTests
  dsimp only
  repeat' split
  case h_1 => exact (h.updMember _).queue _
  case h_2.isTrue => exact h.yieldSlot
  all_goals exact h.of_port rfl

theorem State.PortOk.memberSeam {s : State} (h : s.PortOk) : s.memberSeam.PortOk := by
  unfold State.memberSeam
  repeat' split
  · exact h.completeLeave
  · exact h.moveToSurvey _
  · exact (h.updMember _).holdTests
  · exact h.holdTests
  · exact h

theorem State.PortOk.syncSeam {s : State} (h : s.PortOk) : s.syncSeam.PortOk := h.of_port (by simp)

theorem State.PortOk.announceSeam {s : State} (h : s.PortOk) (syncFirst : Bool) :
    (s.announceSeam syncFirst).PortOk := by
  have harrival : s.seamArrival.PortOk := h.of_port (by simp)
  unfold State.announceSeam
  dsimp only
  repeat' split
  · exact harrival.syncSeam.memberSeam
  · exact harrival.memberSeam.syncSeam
  · exact harrival
  · exact h

/-! ## The line unit's reports (R53, R64, R79, R80, R82, R90) -/

theorem State.PortOk.reportSilent {s : State} (h : s.PortOk) (k : Slot) (round : Round) :
    (s.reportSilent k round).PortOk :=
  (h.updMember fun m => m.record k .silent round).foldl_losePeer _ .left

theorem State.PortOk.closeWindow {s : State} (h : s.PortOk) : s.closeWindow.PortOk := by
  have hclosed : ((s.updLine fun l => { l with window := none }).rearm).PortOk := h.of_port (by simp)
  unfold State.closeWindow
  dsimp only
  repeat' split
  · exact hclosed
  · exact hclosed.reportSilent _ _
  all_goals exact h

theorem State.PortOk.countLeaving {s : State} (h : s.PortOk) : s.countLeaving.PortOk := by
  unfold State.countLeaving
  split
  · exact h.updMember _
  · exact h.completeLeave

theorem State.PortOk.claimSent {s : State} (h : s.PortOk) (f : OutFrame) : (s.claimSent f).PortOk := by
  unfold State.claimSent
  dsimp only
  repeat' split
  · exact (h.updMember _).redrawTarget
  · exact h.of_port (by simp)
  · exact h

theorem State.PortOk.claimCollided {s : State} (h : s.PortOk) : s.claimCollided.PortOk := by
  unfold State.claimCollided
  dsimp only
  repeat' split
  · exact h.of_port (by simp)
  · exact (h.updMember _).redrawTarget
  · exact h.updMember _
  · exact h

theorem State.PortOk.noteOwnOutcome {s : State} (h : s.PortOk) (k : Slot) (o : TxOutcome) :
    (s.noteOwnOutcome k o).PortOk := h.of_port (by simp)

theorem State.PortOk.beaconCollided {s : State} (h : s.PortOk) (f : OutFrame) (k : Slot) (flag : BeaconFlag) :
    (s.beaconCollided f k flag).PortOk := by
  have hnoted := (h.updMember fun m => m.record k .garbled f.start.round).noteOwnOutcome k .collided
  unfold State.beaconCollided
  dsimp only
  repeat' split
  case h_1.isTrue | h_2.isTrue => exact hnoted.takeStrike _ _
  case h_3.isTrue => exact hnoted.countLeaving
  all_goals exact hnoted

theorem State.PortOk.beaconSent {s : State} (h : s.PortOk) (f : OutFrame) (k : Slot) (flag : BeaconFlag) :
    (s.beaconSent f k flag).PortOk := by
  have hnoted := (h.updMember fun m => m.record k .clean f.start.round).noteOwnOutcome k .sent
  unfold State.beaconSent
  dsimp only
  repeat' split
  case h_1.isTrue => exact hnoted.countLeaving
  all_goals exact hnoted

theorem State.PortOk.reportCollided {s : State} (h : s.PortOk) : s.reportCollided.PortOk := by
  have hfreed : ((s.updLine fun l => { l with tx := .idle }).freeRx.clearHanded).PortOk := h.of_port (by simp)
  unfold State.reportCollided
  dsimp only
  repeat' split
  · exact hfreed.beaconCollided _ _ _
  · exact hfreed
  · exact (hfreed.updMember _).claimCollided
  all_goals exact h

theorem State.PortOk.reportSent {s : State} (h : s.PortOk) : s.reportSent.PortOk := by
  have hfreed : ((s.updLine fun l => { l with tx := .idle }).freeRx.clearHanded).PortOk := h.of_port (by simp)
  unfold State.reportSent
  dsimp only
  repeat' split
  · exact hfreed.beaconSent _ _ _
  · exact hfreed
  · exact (hfreed.updMember _).claimSent _
  all_goals exact h

theorem State.PortOk.takeLineEvent {s : State} (h : s.PortOk) (event : LineEvent) :
    (s.takeLineEvent event).PortOk := by
  cases event with
  | marker => exact h.of_port (by simp [State.takeLineEvent])
  | receptionEnd => exact h.of_port (by simp [State.takeLineEvent])
  | collided => exact h.reportCollided
  | sent => exact h.reportSent

theorem State.PortOk.withLine {s : State} (h : s.PortOk) (l : LineUnit) : { s with line := l }.PortOk :=
  h.of_port rfl

theorem State.PortOk.takeNext {s : State} (h : s.PortOk) (event : LineEvent) : (s.takeNext event).PortOk := by
  unfold State.takeNext
  repeat' split
  · exact (h.withLine _).takeLineEvent event
  all_goals exact h

theorem State.PortOk.sampleWave {s : State} (h : s.PortOk) : s.sampleWave.PortOk := by
  unfold State.sampleWave
  repeat' split
  · exact h
  · exact (h.withLine _).takeLineEvent _
  · exact h.withLine _

theorem State.PortOk.runWave {s : State} (h : s.PortOk) : s.runWave.PortOk := by
  unfold State.runWave
  split
  · exact iterate_keeps (P := State.PortOk) (fun _ h => h.sampleWave) _ h
  · exact h

/-! ## Slot start, round wrap and founding (R38, R54, R57, R63, R65, R74, R75, R78, R87, R124) -/

theorem State.PortOk.buildBeacon {s : State} (h : s.PortOk) (k : Slot) : (s.buildBeacon k).PortOk := by
  unfold State.buildBeacon
  split
  · exact h
  · exact h.settleCues.of_port (by simp)

theorem State.PortOk.clearDue {s : State} (h : s.PortOk) : s.clearDue.PortOk := h.of_port (by simp)

theorem State.PortOk.announceSlot {s : State} (h : s.PortOk) : s.announceSlot.PortOk := by
  unfold State.announceSlot
  dsimp only
  repeat' split
  · exact h.clearDue.buildBeacon _
  · exact h.clearDue.of_port (by simp)
  · exact h.clearDue
  all_goals exact h

theorem State.PortOk.countMissed {s : State} (h : s.PortOk) (ended : Round) : (s.countMissed ended).PortOk :=
  (h.updMember fun m => { m with peers := m.peers.map (m.countMiss ended) }).foldl_losePeer _ .silent

theorem State.PortOk.expireClaimants {s : State} (h : s.PortOk) (round : Round) : (s.expireClaimants round).PortOk :=
  h.foldl_losePeer _ .silent

theorem State.PortOk.wrapTables {s : State} (h : s.PortOk) (round : Round) : (s.wrapTables round).PortOk := by
  have hmarked := h.updMember fun m => (m.markUnheard (round - 1)).expireClaims round
  exact (hmarked.countMissed (round - 1)).expireClaimants round

theorem State.PortOk.wrapStation {s : State} (h : s.PortOk) (round : Round) : (s.wrapStation round).PortOk := by
  unfold State.wrapStation
  repeat' split
  case h_1.isTrue | h_3.isTrue => exact h.enterClaiming.of_port (by simp)
  case h_2 => exact h.of_port (by simp)
  case h_3.isFalse => exact h.updMember _
  all_goals exact h

theorem State.PortOk.wrapWork {s : State} (h : s.PortOk) (round : Round) : (s.wrapWork round).PortOk := by
  have hswept : (s.sweep round).PortOk := h.settleCues.of_port rfl
  have hrecords := (hswept.wrapTables round).updMember Membership.wrapRecords
  exact (hrecords.wrapStation round).of_port (by simp [State.wrapWork])

theorem State.PortOk.announceWrap {s : State} (h : s.PortOk) : s.announceWrap.PortOk := by
  have hbar (b : Bool) : (s.clearDue.updPower fun p => { p with fullListenBar := b }).PortOk := h.of_port (by simp)
  unfold State.announceWrap
  dsimp only
  repeat' split
  · exact (hbar _).wrapWork _
  · exact hbar _
  · exact h

theorem State.PortOk.found {s : State} (h : s.PortOk) : s.found.PortOk := by
  unfold State.found
  repeat' split
  · exact (h.queue .founded).enterClaiming
  all_goals exact h

/-! ## Receptions (R55 to R62, R72, R73, R77, R81, R82, R113, R122) -/

theorem State.PortOk.addPeer {s : State} (h : s.PortOk) (e : PeerEntry) : (s.addPeer e).PortOk := by
  unfold State.addPeer
  split
  · exact (h.updMember _).queue _
  · exact h

theorem State.PortOk.peerBeacon {s : State} (h : s.PortOk) (sender : Byte) (flag : BeaconFlag) (round : Round)
    (k : Slot) (report : PeerReport) : (s.peerBeacon sender flag round k report).PortOk := by
  refine State.PortOk.updMember ?_ _
  split
  · exact h.addPeer _
  · exact h.updMember _

theorem State.PortOk.peerClaim {s : State} (h : s.PortOk) (sender : Byte) (round : Round) :
    (s.peerClaim sender round).PortOk := by
  refine State.PortOk.updMember ?_ _
  split
  · exact h.addPeer _
  · exact h.updMember _

theorem State.PortOk.watchTarget {s : State} (h : s.PortOk) : s.watchTarget.PortOk := by
  unfold State.watchTarget
  repeat' split
  · exact h.redrawTarget
  all_goals exact h

theorem State.PortOk.reportedStrike {s : State} (h : s.PortOk) (sender : Byte) (round : Round) (k : Slot)
    (map : BitVec 32) : (s.reportedStrike sender round k map).PortOk := by
  unfold State.reportedStrike
  split
  case h_3 => exact h
  all_goals
    split
    · exact h.takeStrike _ _
    · exact h

theorem State.PortOk.lowerIdTie {s : State} (h : s.PortOk) (sender : Byte) (round : Round) (t : Slot) :
    (s.lowerIdTie sender round t).PortOk := by
  unfold State.lowerIdTie
  split
  · exact State.PortOk.enterClaiming (h.of_port (by simp))
  · exact h

theorem State.PortOk.nativeBeacon {s : State} (h : s.PortOk) (sender : Byte) (flag : BeaconFlag) (round : Round)
    (k : Slot) (report : PeerReport) (map : BitVec 32) :
    (s.nativeBeacon sender flag round k report map).PortOk := by
  have hpeer := (h.updMember fun m => m.noteBeacon k sender).peerBeacon sender flag round k report
  refine State.PortOk.watchTarget ?_
  split
  · exact hpeer.reportedStrike _ _ _ _
  · exact hpeer

theorem State.PortOk.nativeClaim {s : State} (h : s.PortOk) (sender : Byte) (round : Round) (t : Slot) :
    (s.nativeClaim sender round t).PortOk := by
  have hpeer := (h.updMember fun m => m.noteClaim t sender round).peerClaim sender round
  exact (hpeer.lowerIdTie sender round t).watchTarget

theorem State.PortOk.settleBoundaries {s : State} (h : s.PortOk) : s.settleBoundaries.PortOk := by
  have hdue : s.endPulses.fallDue.PortOk := h.of_port (by simp)
  exact hdue.announceSlot.announceWrap

theorem State.PortOk.tableTaken {s : State} (h : s.PortOk) (f : CueTable → CueTable) {events : List EventKind}
    (hevents : ∀ k ∈ events, ∀ n, k ≠ .overflow n) : ((s.updCues f).queueAll events).PortOk := by
  have htable : (s.updCues f).PortOk := h.of_port rfl
  exact htable.queueAll hevents

theorem State.PortOk.completeAlignment {s : State} (h : s.PortOk) (jump : Int) : (s.completeAlignment jump).PortOk := by
  have hemptied : (s.updSync fun u => { u with samples := [], listRound := none, closedRound := none }).PortOk :=
    h.of_port rfl
  exact (hemptied.recordReports.tableTaken _ fun k hk => keepOrClear_events _ _ _ _ k hk).queue _

theorem State.PortOk.alignTo {s : State} (h : s.PortOk) (reference target : Instant) :
    (s.alignTo reference target).PortOk :=
  State.PortOk.completeAlignment (h.settleBoundaries.of_port (by simp)) _

theorem State.PortOk.takeItem {s : State} (h : s.PortOk) : s.takeItem.PortOk := by
  unfold State.takeItem
  split
  next => exact h
  next rest _ =>
    have htaken : (s.updFrame fun u => { u with items := rest }).PortOk := h.of_port rfl
    exact htaken.settleCues.tableTaken _ fun k hk => takeCarryItem_events _ _ _ _ _ k hk

theorem State.PortOk.handOut {s : State} (h : s.PortOk) (flag : BeaconFlag) (sender : Byte) (offset : Int)
    (arrivalRound : Round) (items : List CarryItem) (age : Nat) :
    (s.handOut flag sender offset arrivalRound items age).PortOk := h.of_port (by simp)

theorem State.PortOk.takeBeacon {s : State} (h : s.PortOk) (r : WaitingReception) (offset : Int) (nominal : Instant)
    (flag : BeaconFlag) (sender : Byte) (round : Round) (k : Slot) (members lowest : Byte) (map : BitVec 32)
    (items : List CarryItem) :
    (s.takeBeacon r offset nominal flag sender round k members lowest map items).PortOk := by
  unfold State.takeBeacon
  dsimp only
  repeat' split
  · have hnoted := (h.alignTo r.arrival nominal).updMember fun m => m.noteBeacon k sender
    exact ((hnoted.peerBeacon _ _ _ _ _).updMember _).handOut _ _ _ _ _ _
  · exact (h.nativeBeacon _ _ _ _ _ _).handOut _ _ _ _ _ _
  · exact h.of_port (by simp)
  · exact h

theorem State.PortOk.takeReception {s : State} (h : s.PortOk) (r : WaitingReception) : (s.takeReception r).PortOk := by
  unfold State.takeReception
  dsimp only
  repeat' split
  · exact h.updMember _
  · exact (h.updMember _).takeBeacon _ _ _ _ _ _ _ _ _ _ _
  · exact (h.updMember _).nativeClaim _ _ _
  · exact h.updMember _

theorem State.PortOk.parseNext {s : State} (h : s.PortOk) : s.parseNext.PortOk := by
  unfold State.parseNext
  split
  next rest _ _ =>
    have htaken : (s.updFrame fun u => { u with waiting := rest }).PortOk := h.of_port rfl
    exact htaken.takeReception _
  next => exact h

theorem State.PortOk.drainItems {s : State} (h : s.PortOk) : s.drainItems.PortOk :=
  iterate_keeps (P := State.PortOk) (fun _ h => h.takeItem) _ h

theorem State.PortOk.drainReceptions {s : State} (h : s.PortOk) : s.drainReceptions.PortOk :=
  iterate_keeps (P := State.PortOk) (fun _ h => h.parseNext.drainItems) _ h.drainItems

theorem State.PortOk.finishReceptions {s : State} (h : s.PortOk) : s.finishReceptions.PortOk := by
  unfold State.finishReceptions
  split
  · exact h.drainReceptions
  · exact h

/-! ## LF_PERIOD (R1) -/

theorem State.PortOk.freeSeam {s : State} (h : s.PortOk) : s.freeSeam.PortOk := by
  unfold State.freeSeam
  split
  · have hcounted : { s with freeCount := s.freeCount + 1 }.PortOk := h.of_port rfl
    exact hcounted.announceSeam _
  · exact h

theorem State.PortOk.recordHeld {s : State} (h : s.PortOk) : s.recordHeld.PortOk := by
  unfold State.recordHeld
  split
  · exact h.recordReports
  · exact h

theorem State.PortOk.wakeByPlan {s : State} (h : s.PortOk) : s.wakeByPlan.PortOk := h.of_port (by simp)

theorem State.PortOk.finishPeriod {s : State} (h : s.PortOk) : s.finishPeriod.PortOk := by
  have hstarted : s.hfLimit.endPulses.fallDue.openDueWindow.startTransmission.PortOk := h.of_port (by simp)
  have hannounced := hstarted.freeSeam.announceWrap.announceSlot
  have hpassed := hannounced.runWave.closeWindow.found.wakeByPlan
  exact hpassed.recordHeld.finishReceptions.of_port (by simp [State.finishPeriod])

theorem State.PortOk.lfPeriod {s : State} (h : s.PortOk) (irrx : List Bool) : (s.lfPeriod irrx).PortOk := by
  unfold State.lfPeriod
  split
  · exact h.finishPeriod.of_port (by simp)
  all_goals exact h.of_port rfl

end Sys2Proof.Machine
end

section
/-! PROOFS. The bounds of event queue and taken list through the rows: a transaction takes a record while fewer than 4
are held, an answer takes one away, and the other rows do what the operations do (R161, R162, R170, R171). -/

namespace Sys2Proof.Machine

/-! ## Cold reset (R172) -/

theorem State.portOk_coldReset (cause : ResetCause) (power : PowerController) (s : State) :
    (s.coldReset cause power).PortOk :=
  ⟨eventsOk_nil, by simp [State.coldReset, HostPort.reset]⟩

theorem State.PortOk.resetByLine {s : State} (h : s.PortOk) : s.resetByLine.PortOk := by
  unfold State.resetByLine
  split
  · exact h
  · exact State.portOk_coldReset _ _ s

theorem State.PortOk.endReset {s : State} (h : s.PortOk) : s.endReset.PortOk := by
  unfold State.endReset
  split
  · have hended : { s with resetting := none }.PortOk := h.of_port rfl
    exact hended.queue _
  · exact h

/-! ## Transactions (R159 to R161, R164) -/

theorem HostPort.take_taken_le {p : HostPort} (h : p.taken.length ≤ 4) (r : TakenRecord) :
    (p.take r).taken.length ≤ 4 := by
  unfold HostPort.take
  split
  next hroom => simpa using hroom
  next => exact h

theorem HostPort.release_taken_le {p : HostPort} (h : p.taken.length ≤ 4) (sdi : List Bool) :
    (p.release sdi).taken.length ≤ 4 := by
  unfold HostPort.release
  split
  · exact h
  · exact h
  · split
    · simpa using h
    · exact HostPort.take_taken_le (by exact h) _

theorem State.PortOk.assertSelect {s : State} (h : s.PortOk) : s.assertSelect.PortOk := by
  obtain ⟨hevents, htaken⟩ := h
  rw [Transactions.assertSelect_eq]
  exact ⟨hevents, htaken⟩

theorem State.PortOk.inSelect {s : State} (h : s.PortOk) : s.inSelect.PortOk := by
  unfold State.inSelect
  split
  · exact h
  · exact h.assertSelect

theorem State.PortOk.release {s : State} (h : s.PortOk) (sdi : List Bool) :
    (s.updPort fun p => p.release sdi).PortOk := by
  obtain ⟨hevents, htaken⟩ := h
  exact ⟨by simpa using hevents, HostPort.release_taken_le htaken sdi⟩

theorem State.PortOk.fetch {s : State} (h : s.PortOk) (clocked : Nat) (released : Bool) :
    (s.updPort fun p => p.fetch clocked released).PortOk := by
  obtain ⟨hevents, htaken⟩ := h
  exact ⟨by simpa using hevents, by simpa using htaken⟩

/-! ## Commands of the host (R162, R163, R166, R170) -/

/-- An answer keeps what its command has left in the event queue, and one record fewer is held. -/
theorem State.PortOk.answer {s : State} (h : s.PortOk) {r : TakenRecord} {rest : List TakenRecord}
    (holdest : s.oldestTaken = some (r, rest)) (code : Byte) {done : State × ResultCode × Payload}
    (hdone : done.1.PortOk) : (answer code rest done).PortOk := by
  obtain ⟨-, htaken⟩ := h
  obtain ⟨hevents, -⟩ := hdone
  have hcons : s.port.taken = r :: rest := by
    unfold State.oldestTaken at holdest
    repeat' split at holdest
    all_goals simp_all
  rw [hcons, List.length_cons] at htaken
  exact ⟨hevents, (by omega : rest.length ≤ 4)⟩

theorem State.PortOk.runConfigure {s : State} (h : s.PortOk) (c : ConfigRecord) : (runConfigure c s).1.PortOk := by
  unfold Machine.runConfigure
  repeat' split
  · exact h
  · obtain ⟨hevents, htaken⟩ := h
    exact ⟨hevents, htaken⟩
  · exact h

theorem State.PortOk.runStart {s : State} (h : s.PortOk) : (runStart s).1.PortOk := h.of_port (by simp)

theorem State.PortOk.runLeave {s : State} (h : s.PortOk) : (runLeave s).1.PortOk := by
  unfold Machine.runLeave
  split
  case h_4 | h_5 => exact h.updMember _
  case h_1 | h_2 | h_3 => exact h.completeLeave
  all_goals exact h

theorem State.PortOk.runRestart {s : State} (h : s.PortOk) : (runRestart s).1.PortOk := by
  unfold Machine.runRestart
  split
  · exact h
  · exact h.enterReady.queue .restarted

theorem State.PortOk.runPost {s : State} (h : s.PortOk) (p : PostParams) : (runPost p s).1.PortOk := by
  unfold Machine.runPost
  split
  · exact h.tableTaken _ fun k hk => postCue_events _ _ _ _ _ k hk
  · exact h

theorem State.PortOk.runWithdraw {s : State} (h : s.PortOk) (seq : Byte) : (runWithdraw seq s).1.PortOk :=
  h.of_port (by simp)

theorem State.PortOk.runTakeEvent {s : State} (h : s.PortOk) : (runTakeEvent s).1.PortOk := by
  unfold Machine.runTakeEvent
  split
  next => exact h
  next e rest hcons =>
    obtain ⟨hevents, htaken⟩ := h
    exact ⟨eventsOk_of_cons (hcons ▸ hevents), htaken⟩

/-! ## Every row -/

/-- A row whose condition does not hold changes nothing (log 2). -/
theorem State.PortOk.ite {c : Prop} [Decidable c] {s t : State} (ht : t.PortOk) (h : s.PortOk) :
    (if c then t else s).PortOk := by
  split
  · exact ht
  · exact h

theorem State.PortOk.exec {s : State} (h : s.PortOk) (i : Instr) : ∃ t, exec i s = .next t ∧ t.PortOk := by
  have hrecorded := h.recordReports
  have hsettled := h.settleCues
  cases i with
  | powerOn => exact ⟨_, rfl, State.portOk_coldReset _ _ s⟩
  | rstnActive low => exact ⟨_, rfl, h.resetByLine.ite h⟩
  | resetDone => exact ⟨_, rfl, h.endReset⟩
  | lfPeriod irrx extra => exact ⟨_, rfl, h.lfPeriod _⟩
  | slotStart => exact ⟨_, rfl, h.announceSlot⟩
  | roundWrap => exact ⟨_, rfl, h.announceWrap⟩
  | seamPoint syncFirst => exact ⟨_, rfl, h.announceSeam syncFirst⟩
  | surveyFounding => exact ⟨_, rfl, h.found⟩
  | listenWindowOpen => exact ⟨s.openDueWindow, rfl, h.of_port (by simp)⟩
  | windowClose => exact ⟨_, rfl, h.closeWindow⟩
  | markerRecognised => exact ⟨_, rfl, h.takeNext .marker⟩
  | receptionEnd => exact ⟨_, rfl, h.takeNext .receptionEnd⟩
  | transmitStart => exact ⟨s.startTransmission, rfl, h.of_port (by simp)⟩
  | collided => exact ⟨_, rfl, h.takeNext .collided⟩
  | sent => exact ⟨_, rfl, h.takeNext .sent⟩
  | parseReception => exact ⟨_, rfl, h.parseNext.ite h⟩
  | carryItem => exact ⟨_, rfl, h.takeItem.ite h⟩
  | cueFallsDue => exact ⟨s.fallDue, rfl, h.of_port (by simp)⟩
  | pulseEnd line => exact ⟨_, rfl, h.of_port rfl⟩
  | recordFiringReport => exact ⟨_, rfl, h.recordReport.ite h⟩
  | enterDoze => exact ⟨s.enterDoze, rfl, h.of_port (by simp)⟩
  | wakePlan => exact ⟨_, rfl, h.wakeByPlan⟩
  | hfStable => exact ⟨s.hfUp, rfl, h.of_port (by simp)⟩
  | selnAsserted => exact ⟨_, rfl, h.assertSelect.ite h⟩
  | commandTaken sdi => exact ⟨_, rfl, (h.inSelect.release sdi).ite h⟩
  | fetch part => exact ⟨_, rfl, (h.inSelect.fetch part.clocked part.released).ite h⟩
  | unknownCommand => exact ⟨_, rfl, by split; exacts [h.answer ‹_› _ hrecorded, h]⟩
  | malformed => exact ⟨_, rfl, by split; exacts [h.answer ‹_› _ hrecorded, h]⟩
  | configure => exact ⟨_, rfl, by split; exacts [h.answer ‹_› _ (hrecorded.runConfigure _), h]⟩
  | start => exact ⟨_, rfl, by split; exacts [h.answer ‹_› _ hrecorded.runStart, h]⟩
  | leave => exact ⟨_, rfl, by split; exacts [h.answer ‹_› _ hrecorded.runLeave, h]⟩
  | restart => exact ⟨_, rfl, by split; exacts [h.answer ‹_› _ hrecorded.runRestart, h]⟩
  | post => exact ⟨_, rfl, by split; exacts [h.answer ‹_› _ (hsettled.runPost _), h]⟩
  | withdraw => exact ⟨_, rfl, by split; exacts [h.answer ‹_› _ (hrecorded.runWithdraw _), h]⟩
  | readStatus => exact ⟨_, rfl, by split; exacts [h.answer ‹_› _ (hsettled.of_port (by simp)), h]⟩
  | readCue => exact ⟨_, rfl, by split; exacts [h.answer ‹_› _ (hsettled.of_port (by simp)), h]⟩
  | readPeer => exact ⟨_, rfl, by split; exacts [h.answer ‹_› _ (hrecorded.of_port (by simp)), h]⟩
  | readSlots => exact ⟨_, rfl, by split; exacts [h.answer ‹_› _ hrecorded, h]⟩
  | takeEvent => exact ⟨_, rfl, by split; exacts [h.answer ‹_› _ hrecorded.runTakeEvent, h]⟩

theorem State.PortOk.step {s t : State} (h : s.PortOk) (hstep : step s = .next t) : t.PortOk := by
  unfold Machine.step at hstep
  split at hstep
  next =>
    cases hstep
    exact h
  next i rest _ =>
    have hrest : { s with pending := rest }.PortOk := h.of_port rfl
    obtain ⟨u, hexec, hu⟩ := hrest.exec i
    rw [hexec] at hstep
    cases hstep
    exact hu

/-- Settles O55: the bounds row by row, and an append by the newest record. -/
theorem eventQueueAndTakenListStayBounded : Obligations.EventQueueAndTakenListStayBounded :=
  ⟨fun _ _ h hstep => h.step hstep, appendEvent_of_overflow, fun _ e h => appendEvent_of_other h e⟩

end Sys2Proof.Machine
end

section
/-! PROOFS. Records judged by code, length byte and length, and the two rows of records that are no command (R160, R162,
R163, R175). -/

namespace Sys2Proof.Machine.Records

/-! ## Three bytes as one number (R175) -/

theorem be24_bytes (r : BitVec 24) : be24 (r.extractLsb' 16 8) (r.extractLsb' 8 8) (r.extractLsb' 0 8) = r := by
  unfold be24
  rw [BitVec.extractLsb'_append_extractLsb'_eq_extractLsb' (by rfl),
    BitVec.extractLsb'_append_extractLsb'_eq_extractLsb' (by rfl)]
  exact BitVec.extractLsb'_eq_self

theorem bytes24_be24 (a b c : Byte) : bytes24 (be24 a b c) = [a, b, c] := by
  have hhigh : (a ++ b ++ c).extractLsb' 16 8 = a := by
    rw [BitVec.extractLsb'_append_eq_of_le (by decide)]
    exact BitVec.extractLsb'_append_eq_left
  have hmiddle : (a ++ b ++ c).extractLsb' 8 8 = b := by
    rw [BitVec.extractLsb'_append_eq_of_le (by decide)]
    exact BitVec.extractLsb'_append_eq_right
  have hlow : (a ++ b ++ c).extractLsb' 0 8 = c := BitVec.extractLsb'_append_eq_right
  unfold bytes24 be24
  rw [hhigh, hmiddle, hlow]

/-! ## Commands and their parameters (R160, R175) -/

theorem readCommand_code_params (c : HostCommand) : readCommand c.code c.params = some c := by
  cases c with
  | post p =>
    obtain ⟨line, action, width, mask, dueRound, duePhase⟩ := p
    show some (HostCommand.post ⟨_, _, _, _, be24 _ _ _, be24 _ _ _⟩) = _
    rw [be24_bytes, be24_bytes]
  | _ => rfl

theorem parameterLength_code (c : HostCommand) : parameterLength c.code = some c.params.length := by
  cases c <;> rfl

theorem params_length_lt (c : HostCommand) : c.params.length < 2 ^ 8 := by
  cases c <;> simp [HostCommand.params, bytes24]

theorem eq_of_length_six {l : List Byte} (h : l.length = 6) : ∃ a b c d e f, l = [a, b, c, d, e, f] := by
  match l, h with
  | [a, b, c, d, e, f], _ => exact ⟨a, b, c, d, e, f, rfl⟩

theorem eq_of_length_ten {l : List Byte} (h : l.length = 10) :
    ∃ a b c d r₂ r₁ r₀ p₂ p₁ p₀, l = [a, b, c, d, r₂, r₁, r₀, p₂, p₁, p₀] := by
  match l, h with
  | [a, b, c, d, r₂, r₁, r₀, p₂, p₁, p₀], _ => exact ⟨a, b, c, d, r₂, r₁, r₀, p₂, p₁, p₀, rfl⟩

/-- As many parameters as a known code asks are those of one of its commands. -/
theorem exists_command {code : Byte} {params : List Byte} (h : parameterLength code = some params.length) :
    ∃ c : HostCommand, c.code = code ∧ c.params = params := by
  have hcode {c : HostCommand} (hc : code.toNat = c.code.toNat) : c.code = code := (BitVec.eq_of_toNat_eq hc).symm
  have hnone (h : some 0 = some params.length) : [] = params :=
    (List.length_eq_zero_iff.mp (Option.some.inj h).symm).symm
  have hone (h : some 1 = some params.length) : ∃ n, params = [n] :=
    List.length_eq_one_iff.mp (Option.some.inj h).symm
  unfold parameterLength at h
  split at h
  next hc =>
    obtain ⟨id, len, mask, pol, doze, cur, rfl⟩ := eq_of_length_six (Option.some.inj h).symm
    exact ⟨.configure ⟨id, len, mask, pol, doze, cur⟩, hcode hc, rfl⟩
  next hc => exact ⟨.start, hcode hc, hnone h⟩
  next hc => exact ⟨.leave, hcode hc, hnone h⟩
  next hc => exact ⟨.restart, hcode hc, hnone h⟩
  next hc =>
    obtain ⟨line, action, width, mask, r₂, r₁, r₀, p₂, p₁, p₀, rfl⟩ := eq_of_length_ten (Option.some.inj h).symm
    refine ⟨.post ⟨line, action, width, mask, be24 r₂ r₁ r₀, be24 p₂ p₁ p₀⟩, hcode hc, ?_⟩
    simp only [HostCommand.params, bytes24_be24]
    rfl
  next hc =>
    obtain ⟨n, rfl⟩ := hone h
    exact ⟨.withdraw n, hcode hc, rfl⟩
  next hc => exact ⟨.readStatus, hcode hc, hnone h⟩
  next hc =>
    obtain ⟨i, rfl⟩ := hone h
    exact ⟨.readCue i, hcode hc, rfl⟩
  next hc =>
    obtain ⟨i, rfl⟩ := hone h
    exact ⟨.readPeer i, hcode hc, rfl⟩
  next hc => exact ⟨.readSlots, hcode hc, hnone h⟩
  next hc => exact ⟨.takeEvent, hcode hc, hnone h⟩
  next => cases h

/-! ## The port's judgement (R160) -/

theorem judgeRecord_command (c : HostCommand) :
    judgeRecord c.code (BitVec.ofNat 8 c.params.length :: c.params) = .command c := by
  have hlength : (BitVec.ofNat 8 c.params.length).toNat = c.params.length := by
    rw [BitVec.toNat_ofNat, Nat.mod_eq_of_lt (params_length_lt c)]
  simp [judgeRecord, parameterLength_code, readCommand_code_params, hlength]

theorem parameterLength_eq_none {code : Byte} (h : code = 0 ∨ 0x0B < code.toNat) : parameterLength code = none := by
  unfold parameterLength
  split
  case h_12 => rfl
  all_goals
    rcases h with rfl | h
    · simp_all
    · omega

theorem judgeRecord_unknown {code : Byte} (h : code = 0 ∨ 0x0B < code.toNat) (rest : List Byte) :
    judgeRecord code rest = .unknown code := by
  unfold judgeRecord
  rw [parameterLength_eq_none h]

theorem exists_parameterLength {code : Byte} (hlow : 1 ≤ code.toNat) (hhigh : code.toNat ≤ 0x0B) :
    ∃ n, parameterLength code = some n := by
  unfold parameterLength
  split
  case h_12 =>
    simp only [imp_false] at *
    omega
  all_goals exact ⟨_, rfl⟩

/-- A known code makes a command with as many parameters as it asks and their number before them only. -/
theorem judgeRecord_malformed {code : Byte} {rest : List Byte} (hlow : 1 ≤ code.toNat) (hhigh : code.toNat ≤ 0x0B)
    (h : ∀ c : HostCommand, c.code = code → rest ≠ BitVec.ofNat 8 c.params.length :: c.params) :
    judgeRecord code rest = .malformed code := by
  obtain ⟨n, hn⟩ := exists_parameterLength hlow hhigh
  unfold judgeRecord
  rw [hn]
  cases rest with
  | nil => rfl
  | cons len params =>
    refine if_neg fun ⟨hlen, hparams⟩ => ?_
    obtain ⟨c, hcode, rfl⟩ := exists_command (hn.trans (congrArg some hparams.symm))
    exact h c hcode (by rw [hparams, ← hlen, BitVec.ofNat_toNat, BitVec.setWidth_eq])

/-! ## The two rows (R162, R163) -/

theorem exec_unknownCommand {s : State} {code : Byte} {rest : List TakenRecord} (ha : s.Awake)
    (htaken : s.port.taken = .unknown code :: rest) :
    exec .unknownCommand s = .next (s.recordReports.answered rest .unknownCommand code .none) := by
  show execUnknownCommand s = _
  unfold execUnknownCommand
  rw [oldestTaken_of ha htaken]
  rfl

theorem exec_malformed {s : State} {code : Byte} {rest : List TakenRecord} (ha : s.Awake)
    (htaken : s.port.taken = .malformed code :: rest) :
    exec .malformed s = .next (s.recordReports.answered rest .malformed code .none) := by
  show execMalformed s = _
  unfold execMalformed
  rw [oldestTaken_of ha htaken]
  rfl

/-- Settles O48: the three judgements, and the answer of the two rows. -/
theorem recordsAreJudgedByTheirForm : Obligations.RecordsAreJudgedByTheirForm :=
  ⟨judgeRecord_command, fun _ rest h => judgeRecord_unknown h rest, fun _ _ => judgeRecord_malformed,
    fun _ _ _ => exec_unknownCommand, fun _ _ _ => exec_malformed⟩

end Sys2Proof.Machine.Records
end

section
/-! PROOFS. The five reads, each an answer about the station as it stands, and what the reads of the cue table find
once what has fallen due is settled (R120, R157, R168 to R170). -/

namespace Sys2Proof.Machine.Reads

open Sys2Proof.Machine.SharedTime Sys2Proof.Machine.Cueing

/-! ## READ_STATUS (R157, R168) -/

/-- Settling touches nothing READ_STATUS shows but the cue table and the event queue. -/
theorem settleCues_status {s : State} (ha : s.Awake) : s.settleCues.status =
    { station := s.member.station, clock := s.timer.clock, ownSlot := s.member.ownSlot, tag := s.tag
      lastCorrection := s.sync.lastCorrection, cues := s.settleCues.cues.entries.length
      ownCount := (s.settleCues.cues.entries.filter fun e => e.own && !e.isRetired).length
      nextSeq := s.cues.nextSeq, events := s.settleCues.port.events.length, lastCause := s.power.lastCause
      dozed := s.power.dozed, config := s.port.config } := by
  have hpower : s.settleCues.power = s.power := settleCues_power (by simp [ha.2])
  simp [State.status, State.tag, State.ownId, ownCount, CueEntry.isRetired, hpower]

theorem exec_readStatus {s : State} {rest : List TakenRecord} (h : s.Executes .readStatus rest) :
    exec .readStatus s = .next (State.answered { s.settleCues with power := { s.settleCues.power with dozed := false } }
      rest .ok 0x07 (.status s.settleCues.status)) := by
  show execReadStatus s = _
  unfold execReadStatus
  rw [oldestTaken_of h.1 h.2]
  rfl

/-! ## READ_CUE, READ_PEER and READ_SLOTS (R169) -/

theorem exec_readCue {s : State} {rest : List TakenRecord} {i : Byte} (h : s.Executes (.readCue i) rest) :
    exec .readCue s = .next (answer 0x08 rest (runReadCue i s.settleCues)) := by
  show execReadCue s = _
  unfold execReadCue
  rw [oldestTaken_of h.1 h.2]
  rfl

theorem runReadCue_of_above {i : Byte} (h : 23 < i.toNat) (s : State) : runReadCue i s = (s, .badArg, .none) :=
  if_pos h

theorem runReadCue_of_held {s : State} {i : Byte} {e : CueEntry} (hi : i.toNat ≤ 23)
    (he : s.cues.entries[i.toNat]? = some e) : runReadCue i s = (s, .ok, .cue e) := by
  unfold runReadCue
  rw [if_neg (Nat.not_lt.mpr hi), he]

theorem runReadCue_of_beyond {s : State} {i : Byte} (hi : i.toNat ≤ 23) (hlast : s.cues.entries.length ≤ i.toNat) :
    runReadCue i s = (s, .empty, .none) := by
  unfold runReadCue
  rw [if_neg (Nat.not_lt.mpr hi), List.getElem?_eq_none hlast]

theorem exec_readPeer {s : State} {rest : List TakenRecord} {i : Byte} (h : s.Executes (.readPeer i) rest) :
    exec .readPeer s = .next (answer 0x09 rest (runReadPeer i s.recordReports)) := by
  show execReadPeer s = _
  unfold execReadPeer
  rw [oldestTaken_of h.1 h.2]
  rfl

theorem runReadPeer_of_above {i : Byte} (h : 27 < i.toNat) (s : State) : runReadPeer i s = (s, .badArg, .none) :=
  if_pos h

theorem runReadPeer_of_held {s : State} {i : Byte} {e : PeerEntry} (hi : i.toNat ≤ 27)
    (he : s.member.peers[i.toNat]? = some e) : runReadPeer i s = (s, .ok, .peer e) := by
  unfold runReadPeer
  rw [if_neg (Nat.not_lt.mpr hi), he]

theorem runReadPeer_of_beyond {s : State} {i : Byte} (hi : i.toNat ≤ 27) (hlast : s.member.peers.length ≤ i.toNat) :
    runReadPeer i s = (s, .empty, .none) := by
  unfold runReadPeer
  rw [if_neg (Nat.not_lt.mpr hi), List.getElem?_eq_none hlast]

theorem exec_readSlots {s : State} {rest : List TakenRecord} (h : s.Executes .readSlots rest) :
    exec .readSlots s = .next (s.recordReports.answered rest .ok 0x0A (.slots s.member.slots)) := by
  have hslots : s.recordReports.member.slots = s.member.slots := by simp
  rw [← hslots]
  show execReadSlots s = _
  unfold execReadSlots
  rw [oldestTaken_of h.1 h.2]
  rfl

/-! ## TAKE_EVENT (R170) -/

theorem exec_takeEvent {s : State} {rest : List TakenRecord} (h : s.Executes .takeEvent rest) :
    exec .takeEvent s = .next (answer 0x0B rest (runTakeEvent s.recordReports)) := by
  show execTakeEvent s = _
  unfold execTakeEvent
  rw [oldestTaken_of h.1 h.2]
  rfl

theorem runTakeEvent_of_nil {s : State} (h : s.port.events = []) : runTakeEvent s = (s, .empty, .none) := by
  unfold runTakeEvent
  rw [h]

theorem runTakeEvent_of_cons {s : State} {e : EventRecord} {events : List EventRecord}
    (h : s.port.events = e :: events) :
    runTakeEvent s = ({ s with port := { s.port with events := events } }, .ok, .event e) := by
  unfold runTakeEvent
  rw [h]
  rfl

/-! ## What a settled table holds (R107, R120, R139) -/

/-- Instants of the same round length whose difference is 0 are the same (R4). -/
theorem eq_of_instantDiff_eq_zero {L : Nat} {a b : Instant} (ha : a.phase < L) (hb : b.phase < L)
    (h : instantDiff L a b = 0) : a = b := by
  unfold instantDiff at h
  have hround : (a.round - b.round).toInt = 0 := by
    by_contra hne
    rcases lt_or_gt_of_ne hne with hneg | hpos
    · have : (a.round - b.round).toInt * L ≤ -1 * L := Int.mul_le_mul_of_nonneg_right (by omega) (by omega)
      omega
    · have : 1 * (L : Int) ≤ (a.round - b.round).toInt * L := Int.mul_le_mul_of_nonneg_right (by omega) (by omega)
      omega
  rw [hround, Int.zero_mul] at h
  have hphase : a.phase = b.phase := by omega
  have hrounds : a.round = b.round := sub_eq_zero.mp (BitVec.eq_of_toInt_eq hround)
  obtain ⟨_, _⟩ := a
  obtain ⟨_, _⟩ := b
  simp_all

/-- Recording retires every entry that has a report: one still active after it stood in the table and has none. -/
theorem unreported_of_active {reports : List FiringReport} {entries : List CueEntry} {e : CueEntry}
    (hactive : e.active = true)
    (he : e ∈ reports.foldl (fun entries r => updateCue entries r.origin r.seq fun e =>
      { e with state := .retired r.outcome.reason }) entries) :
    e ∈ entries ∧ ∀ r ∈ reports, ¬ (r.origin = e.origin ∧ r.seq = e.seq) := by
  induction reports generalizing entries with
  | nil => exact ⟨he, by simp⟩
  | cons r rest ih =>
    obtain ⟨hupdated, hrest⟩ := ih he
    dsimp only at hupdated
    rw [updateCue_eq] at hupdated
    obtain ⟨x, hx, hxe⟩ := List.mem_map.mp hupdated
    split at hxe
    next =>
      subst hxe
      cases hactive
    next hkey =>
      subst hxe
      exact ⟨hx, List.forall_mem_cons.mpr ⟨fun ⟨horigin, hseq⟩ => hkey ⟨horigin.symm, hseq.symm⟩, hrest⟩⟩

/-- What is active after settling was watched, and nothing has been reported of it in falling due. -/
theorem unreported_of_mem_settleCues {s : State} {e : CueEntry} (he : e ∈ s.settleCues.cues.entries)
    (hactive : e.active = true) :
    e ∈ s.cues.entries ∧ ∀ r ∈ s.fallDue.firing.reports, ¬ (r.origin = e.origin ∧ r.seq = e.seq) := by
  unfold State.settleCues at he
  rw [recordReports_eq] at he
  have hsettled := unreported_of_active hactive he
  simpa using hsettled

/-- Falling due appends reports and discards none. -/
theorem mem_fallDue_reports {s : State} {r : FiringReport} (hr : r ∈ s.firing.reports) :
    r ∈ s.fallDue.firing.reports := by
  unfold State.fallDue
  repeat' split
  · exact hr
  · rw [foldl_dealWith_reports fun _ => 0, endPulses_reports]
    exact List.mem_append_left _ hr
  · exact hr

theorem mem_watched_of_settled {s : State} {e : CueEntry} (he : e ∈ s.settleCues.cues.entries)
    (hactive : e.active = true) : e ∈ s.watched := by
  obtain ⟨hheld, hunreported⟩ := unreported_of_mem_settleCues he hactive
  rw [watched_eq]
  exact List.mem_filter.mpr ⟨hheld, decide_eq_true
    ⟨active_iff.mp hactive, fun r hr => hunreported r (mem_fallDue_reports hr)⟩⟩

/-- With no watched entry behind the clock, an entry at the clock has the first one watched at the clock too. -/
theorem watched_head_due {s : State} (hclock : s.ClockOk) (horder : s.CuesInOrder)
    (hahead : ∀ x ∈ s.watched, 0 ≤ instantDiff s.L x.due s.timer.clock) {e : CueEntry} (he : e ∈ s.watched)
    (hdue : e.due = s.timer.clock) : ∃ first rest, s.watched = first :: rest ∧ first.due = s.timer.clock := by
  obtain ⟨first, rest, hwatched⟩ := List.exists_cons_of_ne_nil (List.ne_nil_of_mem he)
  refine ⟨first, rest, hwatched, ?_⟩
  rcases List.mem_cons.mp (hwatched ▸ he) with rfl | hrest
  · exact hdue
  · have hfirst : first ∈ s.watched := hwatched ▸ List.mem_cons_self
    have hearliest := watched_head_earliest horder hwatched e hrest
    rw [hdue] at hearliest
    obtain ⟨-, hphases, -⟩ := horder
    exact eq_of_instantDiff_eq_zero (hphases first (List.mem_of_mem_filter hfirst)) hclock
      (le_antisymm hearliest (hahead first hfirst))

/-- An entry the clock was counted to is reported in falling due (R139, R140). -/
theorem reported_of_due {s : State} (hrunning : s.resetting = none) (hcounted : s.timer.counted = true)
    {first e : CueEntry} {rest : List CueEntry} (hwatched : s.watched = first :: rest)
    (hfirst : first.due = s.timer.clock) (he : e ∈ s.watched) (hdue : e.due = s.timer.clock) :
    ∃ r ∈ s.fallDue.firing.reports, r.origin = e.origin ∧ r.seq = e.seq := by
  obtain ⟨hreports, -, -⟩ := fallDue_effect hrunning hcounted hwatched hfirst
  have hin : e ∈ dueAt s := List.mem_filter.mpr ⟨he, decide_eq_true hdue⟩
  rw [hreports]
  exact ⟨reportOf s e 0, List.mem_append_right _ (List.mem_map_of_mem hin), rfl, rfl⟩

/-- Once what has fallen due is settled, every entry PENDING or WITHDRAWN lies after the clock (R120, R139). -/
theorem settled_lies_ahead {s : State} (hrunning : s.resetting = none) (hclock : s.ClockOk) (horder : s.CuesInOrder)
    (hahead : ∀ x ∈ s.watched, 0 ≤ instantDiff s.L x.due s.timer.clock ∧
      (x.due = s.timer.clock → s.timer.counted = true))
    {e : CueEntry} (he : e ∈ s.settleCues.cues.entries) (hactive : e.active = true) :
    0 < instantDiff s.L e.due s.timer.clock := by
  obtain ⟨hheld, hunreported⟩ := unreported_of_mem_settleCues he hactive
  have hwatched := mem_watched_of_settled he hactive
  obtain ⟨hnotBehind, hcounted⟩ := hahead e hwatched
  refine lt_of_le_of_ne hnotBehind fun hzero => ?_
  have hphase : e.due.phase < s.L := horder.2.1 e hheld
  have hdue := eq_of_instantDiff_eq_zero hphase hclock hzero.symm
  obtain ⟨first, rest, hcons, hfirst⟩ := watched_head_due hclock horder (fun x hx => (hahead x hx).1) hwatched hdue
  obtain ⟨r, hr, hkey⟩ := reported_of_due hrunning (hcounted hdue) hcons hfirst hwatched hdue
  exact hunreported r hr hkey

/-- Settles O53: each read by its answer, and what settling leaves PENDING or WITHDRAWN. -/
theorem readsAreSnapshots : Obligations.ReadsAreSnapshots := by
  refine ⟨fun s rest h => ?status, fun s rest i h => ⟨fun hi => ?_, fun e hi he => ?_, fun hi hlast => ?_⟩,
    fun s rest i h => ⟨fun hi => ?_, fun e hi he => ?_, fun hi hlast => ?_⟩, fun s rest h => exec_readSlots h,
    fun s rest h => ⟨fun hnone => ?_, fun e events hcons => ?_⟩,
    fun s ha hclock horder hahead e he hactive =>
      settled_lies_ahead ha.1 hclock horder hahead he (active_iff.mpr hactive)⟩
  case status => rw [exec_readStatus h, settleCues_status h.1]
  · rw [exec_readCue h, runReadCue_of_above hi]
    rfl
  · rw [exec_readCue h, runReadCue_of_held hi he]
    rfl
  · rw [exec_readCue h, runReadCue_of_beyond hi hlast]
    rfl
  · rw [exec_readPeer h, runReadPeer_of_above hi]
    rfl
  · rw [exec_readPeer h, runReadPeer_of_held hi (by simpa using he)]
    rfl
  · rw [exec_readPeer h, runReadPeer_of_beyond hi (by simpa using hlast)]
    rfl
  · rw [exec_takeEvent h, runTakeEvent_of_nil hnone]
    rfl
  · rw [exec_takeEvent h, runTakeEvent_of_cons hcons]
    rfl

end Sys2Proof.Machine.Reads
end

section
/-! PROOFS. One step: which command it executes, and that every row of the table answers a next state with the queue as
it was (logs 1 and 2). -/

namespace Sys2Proof.Machine

/-! ## The front of the queue (log 1) -/

theorem step_of_cons {s : State} {c : Instr} {rest : List Instr} (h : s.pending = c :: rest) :
    step s = exec c { s with pending := rest } := by
  unfold step
  rw [h]

theorem step_of_nil {s : State} (h : s.pending = []) : step s = .next s := by
  unfold step
  rw [h]

/-- Settles O1: by the front of the queue. -/
theorem stepExecutesFrontCommand : Obligations.StepExecutesFrontCommand :=
  ⟨fun _ _ _ => step_of_cons rfl, fun _ h => step_of_nil h⟩

/-! ## What the rows leave of the queue -/

theorem resetByLine_pending (s : State) : s.resetByLine.pending = s.pending := by
  unfold State.resetByLine
  split <;> rfl

theorem endReset_pending (s : State) : s.endReset.pending = s.pending := by
  unfold State.endReset
  split
  · simp
  · rfl

theorem lfPeriod_pending (irrx : List Bool) (s : State) : (s.lfPeriod irrx).pending = s.pending := by
  unfold State.lfPeriod
  split <;> simp

theorem runConfigure_pending (c : ConfigRecord) (s : State) : (runConfigure c s).1.pending = s.pending := by
  unfold runConfigure
  repeat' split
  all_goals rfl

/-- A row whose condition does not hold changes nothing (log 2). -/
theorem pending_ite {c : Prop} [Decidable c] {s t : State} (h : t.pending = s.pending) :
    (if c then t else s).pending = s.pending := by
  split
  · exact h
  · rfl

/-- An answer changes the port only: the queue is as the command's owner leaves it. -/
theorem answer_pending {s : State} {done : State × ResultCode × Payload} (h : done.1.pending = s.pending)
    (code : Byte) (rest : List TakenRecord) : (answer code rest done).pending = s.pending := by
  simpa using h

/-! ## Every row -/

/-- Settles O2: row by row. A row of a host command answers the record it is for, or finds another and changes
nothing. -/
theorem everyCommandCompletes : Obligations.EveryCommandCompletes := by
  intro c s
  cases c with
  | powerOn => exact ⟨_, rfl, rfl⟩
  | rstnActive low => exact ⟨_, rfl, pending_ite (resetByLine_pending s)⟩
  | resetDone => exact ⟨_, rfl, endReset_pending s⟩
  | lfPeriod irrx extra => exact ⟨_, rfl, lfPeriod_pending _ s⟩
  | slotStart | roundWrap | surveyFounding | listenWindowOpen | windowClose | receptionEnd | transmitStart | collided
  | sent | cueFallsDue | enterDoze | wakePlan | hfStable => exact ⟨_, rfl, by simp⟩
  | seamPoint _ | markerRecognised _ | pulseEnd _ => exact ⟨_, rfl, by simp⟩
  | parseReception | carryItem | recordFiringReport | selnAsserted => exact ⟨_, rfl, pending_ite (by simp)⟩
  | commandTaken _ | fetch _ => exact ⟨_, rfl, pending_ite (by simp)⟩
  | configure => exact ⟨_, rfl, by split; exacts [answer_pending (by rw [runConfigure_pending]; simp) _ _, rfl]⟩
  | unknownCommand | malformed | start | leave | restart | post | withdraw | readStatus | readCue | readPeer
  | readSlots | takeEvent => exact ⟨_, rfl, by split; exacts [answer_pending (by simp) _ _, rfl]⟩

end Sys2Proof.Machine
end

section
/-! PROOFS. The byte layouts of the response and its records: numbers of two and three bytes, the codes, and each
record's fields in order (R175, log 35). -/

namespace Sys2Proof.Machine.Records

/-! ## Numbers of more than one byte -/

theorem extractLsb'_ofNat {w start len : Nat} (h : start + len ≤ w) (n : Nat) :
    (BitVec.ofNat w n).extractLsb' start len = BitVec.ofNat len (n / 2 ^ start) := by
  refine BitVec.eq_of_getLsbD_eq fun i hi => ?_
  have hbit : start + i < w := by omega
  simp only [BitVec.getLsbD_extractLsb', BitVec.getLsbD_ofNat, hi, hbit, Nat.testBit_div_two_pow, Nat.add_comm,
    decide_true, Bool.true_and]

theorem bytes24_ofNat (n : Nat) : bytes24 (BitVec.ofNat 24 n) = threeBytes n := by
  unfold bytes24 threeBytes
  simp [extractLsb'_ofNat]

theorem bytes24_eq (r : BitVec 24) : bytes24 r = threeBytes r.toNat := by
  rw [← bytes24_ofNat, BitVec.ofNat_toNat, BitVec.setWidth_eq]

theorem bytes16_ofNat (n : Nat) : bytes16 (BitVec.ofNat 16 n) = [BitVec.ofNat 8 (n / 256), BitVec.ofNat 8 n] := by
  unfold bytes16
  simp [extractLsb'_ofNat]

theorem instantBytes_eq (i : Instant) : instantBytes i = threeBytes i.round.toNat ++ threeBytes i.phase := by
  unfold instantBytes
  rw [bytes24_eq, bytes24_ofNat]

theorem itemHead_zero (line : Fin 4) (action : Action) :
    itemHead 0 line action = BitVec.ofNat 8 (line.val * 16 + action.code) := by
  unfold itemHead
  rw [Nat.zero_mul, Nat.zero_add]

/-! ## The fields in order -/

theorem response_bytes (r : Response) : r.bytes =
    [r.result.code, r.code, if r.lost then 1 else 0, BitVec.ofNat 8 (r.payload.bytes.length / 256),
      BitVec.ofNat 8 r.payload.bytes.length] ++ r.payload.bytes := by
  unfold Response.bytes
  rw [bytes16_ofNat]
  rfl

theorem statusRecord_bytes (r : StatusRecord) : r.bytes =
    [r.station.code] ++ threeBytes r.clock.round.toNat ++ threeBytes r.clock.phase ++
    [slotByte r.ownSlot, byteOf r.tag.members, r.tag.lowest, signedByte r.lastCorrection, byteOf r.cues,
      byteOf r.ownCount, r.nextSeq, byteOf r.events, r.lastCause.code, if r.dozed then 1 else 0] ++
    configBytes r.config := by
  unfold StatusRecord.bytes
  rw [instantBytes_eq]
  rfl

theorem cueEntry_bytes (e : CueEntry) : e.bytes =
    [e.origin, e.seq] ++ threeBytes e.due.round.toNat ++ threeBytes e.due.phase ++
    [BitVec.ofNat 8 (e.line.val * 16 + e.action.code), e.width, e.mask, e.state.code, byteOf e.forward,
      if e.own then 1 else 0] := by
  unfold CueEntry.bytes
  rw [instantBytes_eq, itemHead_zero]
  rfl

theorem peerEntry_bytes (e : PeerEntry) : e.bytes =
    [e.id, slotByte e.slot, e.state.code] ++ threeBytes e.heard.toNat ++ [byteOf e.missed] ++
    match e.report with
    | some r => [signedByte r.offset, r.members, r.lowest]
    | none => [0x80, 0, 0] := by
  unfold PeerEntry.bytes
  rw [bytes24_eq]
  rfl

theorem slotKind_bytes_claimed (holder : Byte) (round : Round) :
    (SlotKind.claimed holder round).bytes = [2, holder] ++ threeBytes round.toNat := by
  rw [← bytes24_eq]
  rfl

theorem slotEntry_bytes (e : SlotEntry) : e.bytes =
    e.kind.bytes ++ [e.outcome.code] ++ threeBytes e.outcomeRound.toNat := by
  unfold SlotEntry.bytes
  rw [bytes24_eq, List.append_assoc, List.singleton_append]

theorem eventKind_bytes_aligned (round : Round) (cleared : Bool) (count : Nat) :
    (EventKind.aligned round cleared count).bytes =
      (0x03, threeBytes round.toNat ++ [if cleared then 1 else 0, byteOf count]) := by
  rw [← bytes24_eq]
  rfl

theorem eventRecord_bytes (e : EventRecord) : e.bytes =
    [e.kind.bytes.1] ++ threeBytes e.clock.round.toNat ++ threeBytes e.clock.phase ++
    (e.kind.bytes.2 ++ [0, 0, 0, 0, 0]).take 5 := by
  unfold EventRecord.bytes
  rw [instantBytes_eq]
  rfl

/-! ## How long the records are -/

theorem configBytes_length (c : Option ConfigRecord) : (configBytes c).length = 6 := by
  cases c <;> rfl

theorem statusRecord_bytes_length (r : StatusRecord) : r.bytes.length = 23 := by
  rw [statusRecord_bytes]
  simp [threeBytes, configBytes_length]

theorem cueEntry_bytes_length (e : CueEntry) : e.bytes.length = 14 := rfl

theorem peerEntry_bytes_length (e : PeerEntry) : e.bytes.length = 10 := by
  rw [peerEntry_bytes]
  cases e.report <;> rfl

theorem slotKind_bytes_length (kind : SlotKind) : kind.bytes.length = 5 := by
  cases kind <;> rfl

theorem slotEntry_bytes_length (e : SlotEntry) : e.bytes.length = 9 := by
  rw [slotEntry_bytes]
  simp [slotKind_bytes_length, threeBytes]

theorem slotTable_bytes_length (t : Vector SlotEntry 32) : (t.toList.flatMap SlotEntry.bytes).length = 288 := by
  simp [List.length_flatMap, slotEntry_bytes_length]

theorem eventRecord_bytes_length (e : EventRecord) : e.bytes.length = 12 := by
  rw [eventRecord_bytes]
  simp [threeBytes]

/-! ## The layouts -/

/-- Settles O49: each record by its fields in order. The codes the statement spells out are those of the model's tables,
so what is left after the fields is equal by computation. -/
theorem recordsHaveTheirLayouts : Obligations.RecordsHaveTheirLayouts := by
  refine ⟨response_bytes, fun p => ⟨?payload, ?length⟩, fun r _ => statusRecord_bytes r,
    fun e _ => cueEntry_bytes e, peerEntry_bytes, fun e => ?slot, fun e _ => ?event⟩
  case payload => cases p <;> rfl
  case length =>
    cases p with
    | none | seq _ => rfl
    | status r => exact statusRecord_bytes_length r
    | cue e => exact cueEntry_bytes_length e
    | peer e => exact peerEntry_bytes_length e
    | slots t => exact slotTable_bytes_length t
    | event e => exact eventRecord_bytes_length e
  case slot =>
    rw [slotEntry_bytes]
    cases e.kind with
    | claimed holder round => rw [slotKind_bytes_claimed]; rfl
    | _ => rfl
  case event =>
    obtain ⟨kind, clock⟩ := e
    rw [eventRecord_bytes]
    cases kind with
    | resetDone cause => cases cause <;> rfl
    | aligned round cleared count => rw [eventKind_bytes_aligned]; rfl
    | strike k reporter => cases reporter <;> rfl
    | peerLost id k reason => cases reason <;> rfl
    | _ => rfl

end Sys2Proof.Machine.Records
end
